-- ==== Sys2Proof/Word.lean ====
section
/-! DEFINITION. The byte and word types of a telegram, the index types of passes, chutes and tip points, and the
small fixed-size records (two, three, four of a kind) the state is made of. -/

namespace Sys2Proof

/-- One byte of a telegram. -/
abbrev Byte := BitVec 8
/-- A 16-bit field: Extension, Check, the charge counter. -/
abbrev Half := BitVec 16
/-- A 32-bit field: Value (signed when read by `toInt`), the time base. -/
abbrev Word := BitVec 32

/-- Passes are numbered 0 to 3. -/
abbrev PassId := Fin 4
/-- Chutes are numbered 0 and 1 within their pass. -/
abbrev ChuteId := Fin 2
/-- Tip points are numbered 0 to 2 within their pass. -/
abbrev TipId := Fin 3

/-- Two of a kind: one for each chute of a pass. -/
structure Duo (α : Type) where
  at0 : α
  at1 : α
deriving DecidableEq, Repr

/-- Three of a kind: one for each tip point of a pass. -/
structure Trio (α : Type) where
  at0 : α
  at1 : α
  at2 : α
deriving DecidableEq, Repr

/-- Four of a kind: one for each pass. -/
structure Quad (α : Type) where
  at0 : α
  at1 : α
  at2 : α
  at3 : α
deriving DecidableEq, Repr

def Duo.get {α : Type} (d : Duo α) : Fin 2 → α
  | 0 => d.at0
  | 1 => d.at1

def Duo.set {α : Type} (d : Duo α) (i : Fin 2) (x : α) : Duo α :=
  match i with
  | 0 => { d with at0 := x }
  | 1 => { d with at1 := x }

def Duo.all {α : Type} (x : α) : Duo α := ⟨x, x⟩

def Trio.get {α : Type} (d : Trio α) : Fin 3 → α
  | 0 => d.at0
  | 1 => d.at1
  | 2 => d.at2

def Trio.set {α : Type} (d : Trio α) (i : Fin 3) (x : α) : Trio α :=
  match i with
  | 0 => { d with at0 := x }
  | 1 => { d with at1 := x }
  | 2 => { d with at2 := x }

def Trio.all {α : Type} (x : α) : Trio α := ⟨x, x, x⟩

def Quad.get {α : Type} (d : Quad α) : Fin 4 → α
  | 0 => d.at0
  | 1 => d.at1
  | 2 => d.at2
  | 3 => d.at3

def Quad.set {α : Type} (d : Quad α) (i : Fin 4) (x : α) : Quad α :=
  match i with
  | 0 => { d with at0 := x }
  | 1 => { d with at1 := x }
  | 2 => { d with at2 := x }
  | 3 => { d with at3 := x }

def Quad.all {α : Type} (x : α) : Quad α := ⟨x, x, x, x⟩

def Quad.map {α β : Type} (f : α → β) (d : Quad α) : Quad β := ⟨f d.at0, f d.at1, f d.at2, f d.at3⟩

/-- The number `n` as an index below `k`, where it is one. -/
def indexBelow (k n : Nat) : Option (Fin k) := if h : n < k then some ⟨n, h⟩ else none

end Sys2Proof
end

