-- ==== Sys2Proof/Config.lean ====
section
/-! DEFINITION. The capacities and ceilings the manual fixes, and the two free values of the model: which of several
timers that run out together is taken first, and in which order the passes take one line-silence expiry. -/

namespace Sys2Proof.Config

/-- R10: each transmit queue holds at most 48 telegrams. -/
def txCapacity : Nat := 48
/-- R33: a pass column never holds more than 48 charges. -/
def columnCapacity : Nat := 48
/-- R126: the Hold Pool holds at most 16 entries. -/
def poolCapacity : Nat := 16
/-- R135: the Action Queue holds at most 32 entries. -/
def actionCapacity : Nat := 32
/-- R135: at most 4 entries for any one actuator. -/
def lineCapacity : Nat := 4
/-- R32, R35: a charge's tonnages and an accumulator's tonnage stay at or below 60000. -/
def tonnageCeiling : Nat := 60000
/-- R49: a total that would pass 4,294,967,295 stops there. -/
def totalCeiling : Nat := 4294967295
/-- R32, R165: a merge count and a notice count stay at 255 once there. -/
def countCeiling : Nat := 255
/-- R25: the tolerance of a gate with no valid GATE-SET entry. -/
def defaultTolerance : Nat := 3

/-- FREE VALUE (DESIGN CHOICE, log entry 5): which of the timers that have run out together is taken first. The manual gives the
outcome of either order and fixes none. -/
opaque expiryChoice : Nat → Nat

/-- FREE VALUE (DESIGN CHOICE, log entry 6): the order in which the passes take a line-silence expiry that the model's own clock
brings about ("The passes may take it in any order", R154). -/
opaque silenceOrder : Nat → List PassId

end Sys2Proof.Config
end

