-- ==== Sys2Proof/Syntax.lean ====
section
/-! DEFINITION. The telegram (R1), the ports, the actuators (R25) and the commands of the block: one constructor of
`Instr` for each row of spec/opcode_table.json. -/

namespace Sys2Proof

/-- A telegram of sixteen bytes in the fields of R1. `value` is the signed 32-bit integer of bytes 8 to 11, `ext` the
unsigned bytes 12 and 13, `check` bytes 14 and 15, each most significant byte first on the line. -/
structure Telegram where
  dest : Byte
  src : Byte
  kind : Byte
  point : Byte
  tag : Byte
  qual : Byte
  ann : Byte
  table : Byte
  value : Word
  ext : Half
  check : Half
deriving DecidableEq, Repr

/-- The two line ports. -/
inductive PortId where
  | control
  | field
deriving DecidableEq, Repr

/-- The thirty-two actuators (Terms; R25): the gate of each chute, the signal and the breaker of each tip point. -/
inductive Actuator where
  | gate (p : PassId) (c : ChuteId)
  | signal (p : PassId) (t : TipId)
  | breaker (p : PassId) (t : TipId)
deriving DecidableEq, Repr

/-- The commands of the block, one constructor per row of spec/opcode_table.json, in the table's order. A telegram
row carries the received telegram, and the port where the row can arrive on either. A timer row names the timer whose
remaining duration runs out. -/
inductive Instr where
  | powerOn
  | lineFree (port : PortId)
  | lineCheckFail (port : PortId) (t : Telegram)
  | invalidAddress (port : PortId) (t : Telegram)
  | relay (port : PortId) (t : Telegram)
  | broadcast (port : PortId) (t : Telegram)
  | refusedPort (t : Telegram)
  | gateSet (t : Telegram)
  | signalSet (t : Telegram)
  | breakerSet (t : Telegram)
  | level (t : Telegram)
  | tip (t : Telegram)
  | draw (t : Telegram)
  | grizzlyClear (t : Telegram)
  | chuteMoisture (t : Telegram)
  | gatePosition (t : Telegram)
  | wagon (t : Telegram)
  | signalState (t : Telegram)
  | breakerState (t : Telegram)
  | noticePost (t : Telegram)
  | noticeTaken (t : Telegram)
  /-- `order` is the order in which the passes take the cause: the manual allows any (R154; DESIGN CHOICE, log entry 6). -/
  | lineSilenceExpiry (order : List PassId)
  | sampleStale (p : PassId)
  /-- The hold timer of the held entry of actuator `a` (the pool holds at most one, R126). -/
  | holdExpiry (a : Actuator)
  /-- The deadline timer of the ISSUED entry of actuator `a` (there is at most one, R135). -/
  | deadlineExpiry (a : Actuator)
  | unknownRequest (t : Telegram)
  | readItem (t : Telegram)
  | tableRead (t : Telegram)
  | writeEntry (t : Telegram)
  | writeValid (t : Telegram)
  | writePointField (t : Telegram)
  | writeConfigured (t : Telegram)
  | writeL (t : Telegram)
  | writeGrizzlyLimit (t : Telegram)
  | writeLineSilenceTime (t : Telegram)
  | isolateRequest (t : Telegram)
  | isolateConfirm (t : Telegram)
  | restore (t : Telegram)
  | acknowledge (t : Telegram)
  | passReset (t : Telegram)
  | surveyLoad (t : Telegram)
  | clearFlags (t : Telegram)
  | timeSet (t : Telegram)
  | deviceReset (t : Telegram)
  | ownStationOtherKind (port : PortId) (t : Telegram)
  | discardWhileResetPending (port : PortId) (t : Telegram)
deriving DecidableEq, Repr

end Sys2Proof
end

