-- ==== Sys2Proof/Decode.lean ====
section
/-! DEFINITION. The command a word spells by the bits of spec/opcode_table.json. The table gives NO row any bits
(every row's "fields" is empty and none has "fixed"), so no word spells a command. -/

namespace Sys2Proof

/-- No row of the opcode table has bits (98_reader.md: n_rows_with_fixed 0, n_rows_with_fields 0), so every word is
refused, whatever its length. The commands of this block arrive as telegrams and events, not as coded words. -/
def decodeTableWord (_nbits _w : Nat) : Option Instr := none

end Sys2Proof
end

