-- ==== Sys2Proof/Machine/LineCheck.lean ====
section
/-! DEFINITION. The line check of R5 and the byte layout of R1 it is computed over. -/

namespace Sys2Proof.Machine

/-- Bytes 0 to 13 of a telegram, in line order (R1): multi-byte fields most significant byte first. -/
def checkedBytes (t : Telegram) : List Byte :=
  [t.dest, t.src, t.kind, t.point, t.tag, t.qual, t.ann, t.table,
    t.value.extractLsb' 24 8, t.value.extractLsb' 16 8, t.value.extractLsb' 8 8, t.value.extractLsb' 0 8,
    t.ext.extractLsb' 8 8, t.ext.extractLsb' 0 8]

/-- One bit into the check register: generator polynomial 0x1021 (R5). -/
def checkBit (reg : Half) (bit : Bool) : Half :=
  if reg.msb == bit then reg <<< 1 else (reg <<< 1) ^^^ 0x1021#16

/-- One byte into the check register, most significant bit first (R5). -/
def checkByte (reg : Half) (b : Byte) : Half :=
  [7, 6, 5, 4, 3, 2, 1, 0].foldl (fun r i => checkBit r (b.getLsbD i)) reg

/-- R5: the register starts at 0xFFFF and its final value is used without inversion. -/
def lineCheck (bytes : List Byte) : Half := bytes.foldl checkByte 0xFFFF#16

/-- The received check of the telegram is the one R5 computes over its bytes 0 to 13. -/
def checkHolds (t : Telegram) : Bool := lineCheck (checkedBytes t) == t.check

/-- The telegram with a freshly computed line check (R5: on alteration or origination). -/
def withCheck (t : Telegram) : Telegram := { t with check := lineCheck (checkedBytes t) }

/-- R6: the address is invalid when the Destination is 0 or 254, or the Source is 0, 254 or 255. -/
def addressValid (t : Telegram) : Bool :=
  !(t.dest == 0 || t.dest == 254 || t.src == 0 || t.src == 254 || t.src == 255)

/-- Destination of a broadcast (Terms). -/
def broadcastStation : Byte := 255

/-- The kind codes of R1 that the part acts on. -/
def kindCMD : Byte := 1
def kindRPT : Byte := 2
def kindVRD : Byte := 3
def kindNTC : Byte := 4
def kindMRQ : Byte := 5
def kindMRP : Byte := 6

end Sys2Proof.Machine
end

