-- ==== Sys2Proof/Machine/Types.lean ====
section
/-! DEFINITION. The named values and the records of the block's state, chapter by chapter. Codes that travel in
telegrams are given in Machine/Operands.lean. -/

namespace Sys2Proof.Machine

/-! ### Classes, states and verdicts -/

/-- Wetness classes, from driest to wettest (R32). -/
inductive Wetness where
  | dry | damp | wet | slurry
deriving DecidableEq, Repr

/-- Rounding modes of a pass (R58). -/
inductive Rounding where
  | nearest | down | up
deriving DecidableEq, Repr

/-- Sample quality (R2). -/
inductive Quality where
  | good | uncertain | bad
deriving DecidableEq, Repr

/-- Fill bands, from lowest to highest (R74). -/
inductive Band where
  | empty | low | normal | high | full
deriving DecidableEq, Repr

/-- Direction of the Divergence condition (R68). -/
inductive Divergence where
  | high | low
deriving DecidableEq, Repr

/-- Signal confirmed state: UNKNOWN, ON, OFF (R79). -/
inductive SignalState where
  | unknown | isOn | isOff
deriving DecidableEq, Repr

/-- Breaker confirmed state (R79, R81). -/
inductive BreakerState where
  | unknown | parked | working | fault
deriving DecidableEq, Repr

/-- Wagon confirmed state (R95). -/
inductive WagonState where
  | unknown | present | absent
deriving DecidableEq, Repr

/-- Grizzly standing (R79, R87). -/
inductive Standing where
  | below | full
deriving DecidableEq, Repr

/-- Movement reference of a gate: NONE, OPEN, CLOSED (R95, R98). -/
inductive MoveReference where
  | unset | opened | closed
deriving DecidableEq, Repr

/-- Last issued direction of a gate: NONE, OPEN, CLOSE (R95, R98). -/
inductive IssuedDirection where
  | unset | opening | closing
deriving DecidableEq, Repr

/-- Pass Notice kinds (R106). -/
inductive SlotKind where
  | stopDraw | oversize | caution
deriving DecidableEq, Repr

/-- The five pass states (R150). -/
inductive PassState where
  | unconfigured | isolated | running | alert | tripped
deriving DecidableEq, Repr

/-- Level of an alarm record: NONE, ALERT, TRIP (R152). -/
inductive AlarmLevel where
  | quiet | alert | trip
deriving DecidableEq, Repr

/-- Alert and trip causes, in code order 1 to 13 (R151). -/
inductive Cause where
  | overflow | underflow | invalid | divergenceHigh | divergenceLow | inexact | actionFail
  | safeFail | breakerUnderPermit | mudRush | gateMoved | lineSilence | restart
deriving DecidableEq, Repr

/-- Answer codes of a VRD, in code order 1 to 7 (R4). -/
inductive Answer where
  | refused | held | clamped | released | cancelled | expired | superseded
deriving DecidableEq, Repr

/-- Reason codes of a VRD, in code order 0 to 15 (R4). -/
inductive Reason where
  | noReason | passState | table | wagon | breaker | signal | grizzly | wet | notice | holdFull | queueFull
  | actuatorBusy | predecessor | safePreempt | trip | room
deriving DecidableEq, Repr

/-- Status codes of an MRP, in code order 0 to 8 (R169). -/
inductive Status where
  | done | refusedState | refusedRange | refusedBarred | busy | unknown | refusedPort | duplicate | notAlert
deriving DecidableEq, Repr

/-- The four outcomes of a judgement, from least to most severe (R115). -/
inductive Severity where
  | pass | clamp | hold | refuse
deriving DecidableEq, Repr

/-- Direction of a command or action (Terms; R27). -/
inductive Direction where
  | safe | nonSafe
deriving DecidableEq, Repr

/-- The fourteen roles of R19, in code order 1 to 14. -/
inductive Role where
  | gateSet | signalSet | breakerSet | gatePosition | wagon | draw | chuteMoisture | level | tip | signalState
  | breakerState | grizzlyClear | noticePost | noticeTaken
deriving DecidableEq, Repr

/-- Handling modes of an applied report (R30). -/
inductive HandlingMode where
  | forward | annotate | absorb
deriving DecidableEq, Repr

/-- Rows of the Interlock Table (R111). -/
inductive Row where
  | gateOpen | signalOn | breakerStart
deriving DecidableEq, Repr

/-- Columns of the Interlock Table (R111). -/
inductive TableColumn where
  | empty | low | normal | high | full | alert
deriving DecidableEq, Repr

/-- A cell of the Interlock Table (R111). -/
inductive Cell where
  | pass | hold | refuse
  | clamp (n : Nat)
deriving DecidableEq, Repr

/-- Notice classes, in code order 1 to 8 (R164). -/
inductive NoticeClass where
  | band | alert | trip | actionFail | forced | slot | restart | overrun
deriving DecidableEq, Repr

/-- Notice sources: a pass 0..3, or the device, 4 (R164). -/
inductive NoticeSource where
  | pass (p : PassId)
  | device
deriving DecidableEq, Repr

/-- Notice priorities (R164). -/
inductive Priority where
  | high | low
deriving DecidableEq, Repr

/-- Reset causes (R175). -/
inductive ResetCause where
  | powerOn | commanded
deriving DecidableEq, Repr

/-! ### Stored tables -/

/-- A Point Table entry (R18): each field other than Valid is written (`some`) or unwritten (`none`). -/
structure PointEntry where
  valid : Bool
  station : Option Byte
  point : Option Byte
  role : Option Role
  pass : Option PassId
  object : Option (Fin 3)
  mode : Option HandlingMode
  scaleNum : Option Nat
  scaleDen : Option Nat
  response : Option Nat
  tolerance : Option Nat
deriving DecidableEq, Repr

/-- Device parameters (R171, R172). -/
structure DeviceParams where
  ownStation : Byte
  noticeStation : Byte
  silenceTime : Nat
deriving DecidableEq, Repr

/-- Enable and priority of one notice class (R164). -/
structure NoticeControl where
  enabled : Bool
  priority : Priority
deriving DecidableEq, Repr

/-- The notice control table (R164): one row per class. -/
structure NoticeTable where
  band : NoticeControl
  alert : NoticeControl
  trip : NoticeControl
  actionFail : NoticeControl
  forced : NoticeControl
  slot : NoticeControl
  restart : NoticeControl
  overrun : NoticeControl
deriving DecidableEq, Repr

/-- The stored pass parameters (R56), with the Configured setting and the residue threshold R (R41). -/
structure PassParams where
  configured : Bool
  len : Nat
  area : Nat
  sensorOffset : Nat
  density : Quad Nat
  rounding : Rounding
  columnWeight : Nat
  sensorWeight : Nat
  divergenceLimit : Nat
  staleTime : Nat
  cushion : Nat
  highFill : Nat
  hysteresis : Nat
  residue : Nat
  enableI : Bool
  enableO : Bool
  enableU : Bool
  enableV : Bool
  enableG : Bool
deriving DecidableEq, Repr

/-- One row of an Interlock Table: six cells and the hold time (R111). -/
structure InterlockRow where
  empty : Cell
  low : Cell
  normal : Cell
  high : Cell
  full : Cell
  alert : Cell
  holdTime : Nat
deriving DecidableEq, Repr

/-- The Interlock Table of a pass (R111). -/
structure InterlockTable where
  gateOpen : InterlockRow
  signalOn : InterlockRow
  breakerStart : InterlockRow
deriving DecidableEq, Repr

/-- All that the part keeps through loss of power (R171, R172), the isolation marks (R150) included. -/
structure Tables where
  points : Vector PointEntry 128
  device : DeviceParams
  notices : NoticeTable
  params : Quad PassParams
  interlock : Quad InterlockTable
  /-- Opening limits, by wetness class in the order Dry, Damp, Wet, Slurry (R105). -/
  openings : Quad (Quad Nat)
  /-- Grizzly limits (R79, R87). -/
  grizzly : Quad (Trio Nat)
  marks : Quad Bool
deriving DecidableEq, Repr

/-! ### The pass column (chapter 3) -/

/-- Origin of a charge (R32). -/
inductive Origin where
  | tip (t : TipId)
  | grizzly (t : TipId)
  | survey
deriving DecidableEq, Repr

/-- Merge record of a charge, where present (R32). -/
structure MergeRecord where
  count : Nat
  latest : Word
deriving DecidableEq, Repr

/-- A charge (R32). -/
structure Charge where
  number : Half
  origin : Origin
  placed : Nat
  remaining : Nat
  wetness : Wetness
  oversize : Bool
  placedAt : Word
  merge : Option MergeRecord
deriving DecidableEq, Repr

/-- A grizzly accumulator (R35). -/
structure Accumulator where
  tonnage : Nat
  wetness : Wetness
deriving DecidableEq, Repr

/-- The Column Store's record of a pass: charges head first, charge counter, accumulators, the five totals and the
surveyed status (R33, R35, R48, R49). -/
structure Column where
  charges : List Charge
  counter : Half
  accums : Trio Accumulator
  base : Nat
  tipped : Nat
  drawn : Nat
  shortfall : Nat
  spill : Nat
  surveyed : Bool
deriving DecidableEq, Repr

/-! ### The Level Estimator (chapter 4) -/

/-- A current level sample (R59). -/
structure Sample where
  distance : Nat
  quality : Quality
  inexact : Bool
  fresh : Bool
deriving DecidableEq, Repr

/-- A cause set: the conditions of the latest evaluation; G carries a direction (R59). -/
structure CauseSet where
  i : Bool
  o : Bool
  u : Bool
  v : Bool
  g : Option Divergence
deriving DecidableEq, Repr

/-- The sticky flags, one per condition (R59). -/
structure StickyFlags where
  i : Bool
  o : Bool
  u : Bool
  v : Bool
  g : Bool
deriving DecidableEq, Repr

/-- What the Level Estimator holds for a pass (R59). `life` is the remaining duration of a running sample life
timer. -/
structure Estimate where
  sample : Option Sample
  life : Option Nat
  h : Nat
  hc : Nat
  hs : Nat
  band : Band
  causes : CauseSet
  sticky : StickyFlags
deriving DecidableEq, Repr

/-! ### Object records and the notice slot (chapters 5 and 6) -/

/-- A tip-point record's volatile items (R79). -/
structure TipRecord where
  signal : SignalState
  breaker : BreakerState
  standing : Standing
deriving DecidableEq, Repr

/-- A chute record's items that follow the reports (R95): gate (`none` is UNKNOWN), wagon, last moisture class
(`none` is NONE). The two items the Action Queue sets stand in `GateHistory`. -/
structure ChuteRecord where
  gate : Option Nat
  wagon : WagonState
  moisture : Option Wetness
deriving DecidableEq, Repr

/-- The two items of a chute record that the Action Queue sets (R95, R98). -/
structure GateHistory where
  reference : MoveReference
  lastIssued : IssuedDirection
deriving DecidableEq, Repr

/-- A full Pass Notice slot (R106). -/
structure SlotNotice where
  kind : SlotKind
  station : Byte
  posted : Word
deriving DecidableEq, Repr

/-! ### The Pass Supervisor (chapter 10) -/

/-- The interrupted telegram of an alarm record (R152). -/
structure Interrupted where
  src : Byte
  kind : Byte
  point : Byte
  tag : Byte
  value : Word
deriving DecidableEq, Repr

/-- An alarm record (R152). The secondary set is kept in code order without repeats. -/
structure AlarmRecord where
  level : AlarmLevel
  primary : Option Cause
  secondary : List Cause
  raisedAt : Word
  h : Nat
  hc : Nat
  hs : Nat
  telegram : Option Interrupted
deriving DecidableEq, Repr

/-- The volatile state of one pass, but for what the Action Queue and the Hold Pool hold. -/
structure Pass where
  column : Column
  est : Estimate
  tips : Trio TipRecord
  chutes : Duo ChuteRecord
  slot : Option SlotNotice
  mode : PassState
  alarm : AlarmRecord
deriving DecidableEq, Repr

/-! ### Ports, notices, Hold Pool and Action Queue (chapters 1, 8, 9, 11) -/

/-- Classes of a queued telegram (R10). A `reply` marks whether it is the DONE of a DEVICE-RESET (R17). The Action
Queue entry that placed an action telegram is the ISSUED entry of its actuator: there is at most one (R135). -/
inductive TxClass where
  | relayed
  | verdict
  | reply (endsInReset : Bool)
  | refusedPort
  | action (a : Actuator) (d : Direction)
deriving DecidableEq, Repr

/-- A telegram in a transmit queue (R10). -/
structure Queued where
  tel : Telegram
  cls : TxClass
deriving DecidableEq, Repr

/-- The telegram whose transmission is in progress (R13); `endsInReset` on the DONE of a DEVICE-RESET (R17). -/
structure Sending where
  tel : Telegram
  endsInReset : Bool
deriving DecidableEq, Repr

/-- A port: transmit queue, overrun flag, and the transmission in progress (`none`: the line is idle). -/
structure Port where
  queue : List Queued
  overrun : Bool
  sending : Option Sending
deriving DecidableEq, Repr

/-- An entry of the notice list; the made order is the order of the list (R165). -/
structure NoticeEntry where
  source : NoticeSource
  cls : NoticeClass
  priority : Priority
  count : Nat
  detail : Nat
deriving DecidableEq, Repr

/-- The Control Port with the notice list its arbiter draws from (R14). -/
structure ControlSide where
  port : Port
  notices : List NoticeEntry
deriving DecidableEq, Repr

/-- Source, Tag and Point of a command from a control station (R126, R135). -/
structure Requester where
  src : Byte
  tag : Byte
  point : Byte
deriving DecidableEq, Repr

/-- The carried bytes of a command (R126, R135). -/
structure Carried where
  qual : Byte
  ann : Byte
  table : Byte
  ext : Half
deriving DecidableEq, Repr

/-- A held command (R126). Its Row is that of its actuator's kind. -/
structure HeldEntry where
  actuator : Actuator
  requester : Requester
  value : Word
  carried : Carried
  timer : Nat
  reason : Reason
deriving DecidableEq, Repr

/-- Originator of an action (R135): a control station, or the part, with the tag it gave the command. -/
inductive Originator where
  | station (r : Requester)
  | originated (tag : Byte)
deriving DecidableEq, Repr

/-- State of an action (R135). An ISSUED entry has its deadline's remaining duration, the standing of its latest
action telegram (SENT or QUEUED), and that telegram, of which a duplicate places a copy (R145). -/
inductive ActionState where
  | waiting
  | issued (deadline : Nat) (sent : Bool) (tel : Telegram)
deriving DecidableEq, Repr

/-- An Action Queue entry (R135). Its Operation is its actuator's kind with its direction. -/
structure ActionEntry where
  actuator : Actuator
  direction : Direction
  value : Nat
  origin : Originator
  carried : Carried
  state : ActionState
deriving DecidableEq, Repr

/-- Everything that moves when commands are judged, held, issued, answered or notified: the two ports, the notice
list, the Hold Pool (arrival order), the Action Queue (admission order), the originated-tag counter (R136) and the
movement histories of the gates (R98). -/
structure Traffic where
  ctl : ControlSide
  field : Port
  pool : List HeldEntry
  actions : List ActionEntry
  tagCounter : Byte
  history : Quad (Duo GateHistory)
deriving DecidableEq, Repr

/-- What a judgement reads beside the traffic (R111: the Interlock Unit holds no volatile state of its own). -/
structure View where
  tables : Tables
  passes : Quad Pass
deriving DecidableEq, Repr

/-- A Point Table entry found by a lookup, with its role, pass and object (R23: at most one). -/
structure Hit where
  entry : PointEntry
  role : Role
  pass : PassId
  object : Fin 3
deriving DecidableEq, Repr

/-- The outcome of the verdict procedure (R115): `value` is the forwarded value. -/
structure Verdict where
  severity : Severity
  reason : Reason
  value : Nat
deriving DecidableEq, Repr

end Sys2Proof.Machine
end

