-- ==== Sys2Proof/Machine/Factory.lean ====
section
/-! DEFINITION. The factory value of every stored setting, and the value of every piece of volatile state after
power-on and device reset, each as its chapter gives it. -/

namespace Sys2Proof.Machine

/-! ### Factory values of the stored tables -/

/-- R20: in the factory state every entry is invalid and every other field unwritten. -/
def blankPoint : PointEntry :=
  { valid := false, station := none, point := none, role := none, pass := none, object := none, mode := none,
    scaleNum := none, scaleDen := none, response := none, tolerance := none }

/-- R172: own station 1, notice station 2, line-silence time 100. -/
def factoryDevice : DeviceParams := { ownStation := 1, noticeStation := 2, silenceTime := 100 }

/-- R164: every class enabled; ALERT, TRIP, ACTION-FAIL and RESTART high, the others low. -/
def factoryNotices : NoticeTable :=
  { band := ⟨true, .low⟩, alert := ⟨true, .high⟩, trip := ⟨true, .high⟩, actionFail := ⟨true, .high⟩,
    forced := ⟨true, .low⟩, slot := ⟨true, .low⟩, restart := ⟨true, .high⟩, overrun := ⟨true, .low⟩ }

/-- R56, R41 and R172 (Configured = no). -/
def factoryParams : PassParams :=
  { configured := false, len := 1000, area := 1257, sensorOffset := 20, density := ⟨200, 210, 225, 240⟩,
    rounding := .nearest, columnWeight := 4, sensorWeight := 12, divergenceLimit := 50, staleTime := 300,
    cushion := 100, highFill := 100, hysteresis := 10, residue := 5,
    enableI := false, enableO := true, enableU := true, enableV := true, enableG := true }

/-- R111: the factory Interlock Table. -/
def factoryInterlock : InterlockTable :=
  { gateOpen := { empty := .refuse, low := .clamp 30, normal := .pass, high := .pass, full := .pass, alert := .hold,
                  holdTime := 600 }
    signalOn := { empty := .pass, low := .pass, normal := .pass, high := .hold, full := .refuse, alert := .hold,
                  holdTime := 1200 }
    breakerStart := { empty := .pass, low := .pass, normal := .pass, high := .pass, full := .pass, alert := .hold,
                      holdTime := 600 } }

/-- R105: factory opening limits, Dry, Damp, Wet, Slurry. -/
def factoryOpenings : Quad Nat := ⟨100, 100, 50, 0⟩

/-- R79: factory grizzly limits. -/
def factoryGrizzly : Trio Nat := Trio.all 3000

/-- R172: the stored tables of the delivered part; isolation marks no (R150). -/
def factoryTables : Tables :=
  { points := Vector.replicate 128 blankPoint
    device := factoryDevice
    notices := factoryNotices
    params := Quad.all factoryParams
    interlock := Quad.all factoryInterlock
    openings := Quad.all factoryOpenings
    grizzly := Quad.all factoryGrizzly
    marks := Quad.all false }

/-! ### Volatile state after power-on and device reset -/

/-- R35: an empty accumulator holds 0 with wetness Dry. -/
def emptyAccumulator : Accumulator := { tonnage := 0, wetness := .dry }

/-- R53. -/
def clearedColumn : Column :=
  { charges := [], counter := 0, accums := Trio.all emptyAccumulator, base := 0, tipped := 0, drawn := 0,
    shortfall := 0, spill := 0, surveyed := false }

/-- R59: an empty cause set. -/
def noCauses : CauseSet := { i := false, o := false, u := false, v := false, g := none }

/-- R59: all sticky flags clear. -/
def noFlags : StickyFlags := { i := false, o := false, u := false, v := false, g := false }

/-- R59. -/
def clearedEstimate : Estimate :=
  { sample := none, life := none, h := 0, hc := 0, hs := 0, band := .empty, causes := noCauses, sticky := noFlags }

/-- R79. -/
def clearedTip : TipRecord := { signal := .unknown, breaker := .unknown, standing := .below }

/-- R95. -/
def clearedChute : ChuteRecord := { gate := none, wagon := .unknown, moisture := none }

/-- R95: movement reference NONE, last issued direction NONE. -/
def clearedHistory : GateHistory := { reference := .unset, lastIssued := .unset }

/-- R152: the values after power-on, device reset and unconfiguring. -/
def clearedAlarm : AlarmRecord :=
  { level := .quiet, primary := none, secondary := [], raisedAt := 0, h := 0, hc := 0, hs := 0, telegram := none }

/-- R162: the alarm record of a pass that comes back in ALERT. -/
def restartAlarm : AlarmRecord := { clearedAlarm with level := .alert, primary := some .restart }

/-- A pass with every block's item at its value after power-on, in pass state `mode`. -/
def clearedPass (mode : PassState) : Pass :=
  { column := clearedColumn, est := clearedEstimate, tips := Trio.all clearedTip, chutes := Duo.all clearedChute,
    slot := none, mode := mode, alarm := clearedAlarm }

/-- R162: the pass after start-up, from its Configured setting and its isolation mark. -/
def restartedPass (configured mark : Bool) : Pass :=
  if !configured then clearedPass .unconfigured
  else if mark then clearedPass .isolated
  else { clearedPass .alert with alarm := restartAlarm }

/-- R17: queue empty, overrun flag clear, line idle. -/
def clearedPort : Port := { queue := [], overrun := false, sending := none }

/-- R17, R126, R136, R165, R95: queues, pool, notice list empty, the tag counter 0, the gate histories NONE. -/
def clearedTraffic : Traffic :=
  { ctl := { port := clearedPort, notices := [] }
    field := clearedPort
    pool := []
    actions := []
    tagCounter := 0
    history := Quad.all (Duo.all clearedHistory) }

/-- R16: the line-silence timer as started with line-silence time `d`: stopped where `d` is 0. -/
def startedSilence (d : Nat) : Option Nat := if d = 0 then none else some d

end Sys2Proof.Machine
end

