-- ==== Sys2Proof/Machine/Operands.lean ====
section
/-! DEFINITION. The operand forms of the commands: the codes that travel in telegrams, what each role takes from a
report (R2, R19, R29), what a command asks for (R27), what a management request names (R169 to R171). -/

namespace Sys2Proof.Machine

/-! ### Codes -/

/-- R2, R167: wetness class codes 0 to 3. -/
def Wetness.code : Wetness → Nat
  | .dry => 0 | .damp => 1 | .wet => 2 | .slurry => 3

/-- The wetness class with code `n`, where there is one. -/
def Wetness.ofCode : Nat → Option Wetness
  | 0 => some .dry | 1 => some .damp | 2 => some .wet | 3 => some .slurry | _ => none

/-- R32: the later of the two in the order Dry, Damp, Wet, Slurry. -/
def Wetness.wetter (a b : Wetness) : Wetness := if a.code < b.code then b else a

/-- A table with one value per wetness class, read for a class (R56 densities, R105 limits). -/
def byWetness {α : Type} (q : Quad α) : Wetness → α
  | .dry => q.at0 | .damp => q.at1 | .wet => q.at2 | .slurry => q.at3

/-- R3: bands are coded 0 to 4. -/
def Band.code : Band → Nat
  | .empty => 0 | .low => 1 | .normal => 2 | .high => 3 | .full => 4

/-- R151: cause codes 1 to 13. -/
def Cause.code : Cause → Nat
  | .overflow => 1 | .underflow => 2 | .invalid => 3 | .divergenceHigh => 4 | .divergenceLow => 5 | .inexact => 6
  | .actionFail => 7 | .safeFail => 8 | .breakerUnderPermit => 9 | .mudRush => 10 | .gateMoved => 11
  | .lineSilence => 12 | .restart => 13

/-- R4: answer codes 1 to 7. -/
def Answer.code : Answer → Byte
  | .refused => 1 | .held => 2 | .clamped => 3 | .released => 4 | .cancelled => 5 | .expired => 6 | .superseded => 7

/-- R4: reason codes 0 to 15. -/
def Reason.code : Reason → Nat
  | .noReason => 0 | .passState => 1 | .table => 2 | .wagon => 3 | .breaker => 4 | .signal => 5 | .grizzly => 6
  | .wet => 7 | .notice => 8 | .holdFull => 9 | .queueFull => 10 | .actuatorBusy => 11 | .predecessor => 12
  | .safePreempt => 13 | .trip => 14 | .room => 15

/-- R169: status codes 0 to 8. -/
def Status.code : Status → Byte
  | .done => 0 | .refusedState => 1 | .refusedRange => 2 | .refusedBarred => 3 | .busy => 4 | .unknown => 5
  | .refusedPort => 6 | .duplicate => 7 | .notAlert => 8

/-- R164: class codes 1 to 8. -/
def NoticeClass.code : NoticeClass → Nat
  | .band => 1 | .alert => 2 | .trip => 3 | .actionFail => 4 | .forced => 5 | .slot => 6 | .restart => 7
  | .overrun => 8

/-- The notice class with code `n`, where there is one (R171). -/
def NoticeClass.ofCode : Nat → Option NoticeClass
  | 1 => some .band | 2 => some .alert | 3 => some .trip | 4 => some .actionFail | 5 => some .forced
  | 6 => some .slot | 7 => some .restart | 8 => some .overrun | _ => none

/-- R2, R164: the source of a notice, 0 to 3 for a pass, 4 for the device. -/
def NoticeSource.code : NoticeSource → Nat
  | .pass p => p.val | .device => 4

/-- R175: reset cause 1 POWER-ON, 2 COMMANDED. -/
def ResetCause.code : ResetCause → Nat
  | .powerOn => 1 | .commanded => 2

/-- R106: notice kinds 1 STOP-DRAW, 2 OVERSIZE, 3 CAUTION. -/
def SlotKind.code : SlotKind → Nat
  | .stopDraw => 1 | .oversize => 2 | .caution => 3

/-- R19: role codes 1 to 14. -/
def Role.code : Role → Nat
  | .gateSet => 1 | .signalSet => 2 | .breakerSet => 3 | .gatePosition => 4 | .wagon => 5 | .draw => 6
  | .chuteMoisture => 7 | .level => 8 | .tip => 9 | .signalState => 10 | .breakerState => 11 | .grizzlyClear => 12
  | .noticePost => 13 | .noticeTaken => 14

/-- The role with code `n`, where there is one (R19). -/
def Role.ofCode : Nat → Option Role
  | 1 => some .gateSet | 2 => some .signalSet | 3 => some .breakerSet | 4 => some .gatePosition | 5 => some .wagon
  | 6 => some .draw | 7 => some .chuteMoisture | 8 => some .level | 9 => some .tip | 10 => some .signalState
  | 11 => some .breakerState | 12 => some .grizzlyClear | 13 => some .noticePost | 14 => some .noticeTaken
  | _ => none

/-- R19: GATE-SET, SIGNAL-SET and BREAKER-SET are the command roles. -/
def Role.isCommand : Role → Bool
  | .gateSet | .signalSet | .breakerSet => true
  | _ => false

/-- R19: the chute roles. -/
def Role.isChute : Role → Bool
  | .gateSet | .gatePosition | .wagon | .draw | .chuteMoisture => true
  | _ => false

/-- R19: the pass-level roles. -/
def Role.isPassLevel : Role → Bool
  | .level | .noticePost | .noticeTaken => true
  | _ => false

/-- R18: handling modes 0 FORWARD, 1 ANNOTATE, 2 ABSORB. -/
def HandlingMode.code : HandlingMode → Nat
  | .forward => 0 | .annotate => 1 | .absorb => 2

def HandlingMode.ofCode : Nat → Option HandlingMode
  | 0 => some .forward | 1 => some .annotate | 2 => some .absorb | _ => none

/-- R171: rounding modes 0 NEAREST, 1 DOWN, 2 UP. -/
def Rounding.code : Rounding → Nat
  | .nearest => 0 | .down => 1 | .up => 2

def Rounding.ofCode : Nat → Option Rounding
  | 0 => some .nearest | 1 => some .down | 2 => some .up | _ => none

/-- R171: cells 0 PASS, 1..99 CLAMP n, 200 HOLD, 201 REFUSE. -/
def Cell.code : Cell → Nat
  | .pass => 0 | .clamp n => n | .hold => 200 | .refuse => 201

/-- The cell a value codes in row `r`: a CLAMP is out of range in a row other than GATE-OPEN (R112, R171). -/
def Cell.ofCode (r : Row) (n : Nat) : Option Cell :=
  if n = 0 then some .pass
  else if n = 200 then some .hold
  else if n = 201 then some .refuse
  else if n ≤ 99 ∧ r = .gateOpen then some (.clamp n)
  else none

end Sys2Proof.Machine

namespace Sys2Proof

open Machine

/-! ### Actuators -/

/-- The pass of an actuator. -/
def Actuator.pass : Actuator → PassId
  | .gate p _ => p | .signal p _ => p | .breaker p _ => p

/-- The chute or tip-point number of an actuator, as the Object field of a Point Table entry counts it. -/
def Actuator.object : Actuator → Fin 3
  | .gate _ c => c.castLE (by decide) | .signal _ t => t | .breaker _ t => t

/-- R25: the role of the actuator's command point. -/
def Actuator.commandRole : Actuator → Role
  | .gate _ _ => .gateSet | .signal _ _ => .signalSet | .breaker _ _ => .breakerSet

/-- R25: the role of the actuator's feedback point. -/
def Actuator.feedbackRole : Actuator → Role
  | .gate _ _ => .gatePosition | .signal _ _ => .signalState | .breaker _ _ => .breakerState

/-- R111, R126: the Interlock Table row of the actuator's non-safe operation. -/
def Actuator.row : Actuator → Row
  | .gate _ _ => .gateOpen | .signal _ _ => .signalOn | .breaker _ _ => .breakerStart

end Sys2Proof

namespace Sys2Proof.Machine

/-- R143: operation codes 1 gate open, 2 gate close, 3 signal on, 4 signal off, 5 breaker start, 6 breaker stop. -/
def operationCode (a : Actuator) (d : Direction) : Nat :=
  match a, d with
  | .gate _ _, .nonSafe => 1
  | .gate _ _, .safe => 2
  | .signal _ _, .nonSafe => 3
  | .signal _ _, .safe => 4
  | .breaker _ _, .nonSafe => 5
  | .breaker _ _, .safe => 6

/-- The chute an Object value names (chute roles have Object 0 or 1, R18). -/
def chuteOf (o : Fin 3) : ChuteId := if o = 0 then 0 else 1

/-- R25: the actuator a command-role hit is for. -/
def Hit.actuator (h : Hit) : Option Actuator :=
  match h.role with
  | .gateSet => some (.gate h.pass (chuteOf h.object))
  | .signalSet => some (.signal h.pass h.object)
  | .breakerSet => some (.breaker h.pass h.object)
  | _ => none

/-! ### What a command asks (R27) -/

/-- R27: a Value above 0 is non-safe, 0 or less is safe-direction. -/
def commandDirection (t : Telegram) : Direction := if 0 < t.value.toInt then .nonSafe else .safe

/-- R27, R117: the requested value of a non-safe command. -/
def requestedValue (value : Word) : Nat := value.toInt.toNat

/-- R126: what the part records of a command for its answers. -/
def requesterOf (t : Telegram) : Requester := { src := t.src, tag := t.tag, point := t.point }

/-- R126, R135: the bytes an action telegram carries as the command carried them. -/
def carriedOf (t : Telegram) : Carried := { qual := t.qual, ann := t.ann, table := t.table, ext := t.ext }

/-- R135: the carried bytes of an originated entry are 0. -/
def noCarried : Carried := { qual := 0, ann := 0, table := 0, ext := 0 }

/-- R151: what a cause carries of the report it was found in, as received. -/
def interruptedOf (t : Telegram) : Interrupted :=
  { src := t.src, kind := t.kind, point := t.point, tag := t.tag, value := t.value }

/-! ### What a report says (R2, R29) -/

/-- R2: a wetness code above 3 is taken as Slurry. -/
def reportWetness (t : Telegram) : Wetness := (Wetness.ofCode t.qual.toNat).getD .slurry

/-- R2, R29: quality 0 Good, 1 Uncertain, any other Bad; a raw count outside 0..65535 makes the sample Bad. -/
def reportQuality (t : Telegram) : Quality :=
  if t.value.toInt < 0 ∨ 65535 < t.value.toInt then .bad
  else match t.qual.toNat with
    | 0 => .good
    | 1 => .uncertain
    | _ => .bad

/-- R29: a TIP payload, at most 6000; `none` for 0 or less (ignored). -/
def reportPayload (t : Telegram) : Option Nat :=
  if t.value.toInt ≤ 0 then none else some (min t.value.toInt.toNat 6000)

/-- R29: an oversize share, at most 100. -/
def reportShare (t : Telegram) : Nat := min t.ext.toNat 100

/-- R29: a gate opening, clamped into 0..100. -/
def reportOpening (t : Telegram) : Nat := min t.value.toInt.toNat 100

/-- R19, R29: 1 PRESENT, 0 ABSENT, any other ignored. -/
def reportWagon (t : Telegram) : Option WagonState :=
  if t.value = 1 then some .present else if t.value = 0 then some .absent else none

/-- R80, R29: 1 ON, 0 OFF, any other ignored. -/
def reportSignal (t : Telegram) : Option SignalState :=
  if t.value = 1 then some .isOn else if t.value = 0 then some .isOff else none

/-- R81, R29: 0 PARKED, 1 WORKING, 2 FAULT, any other ignored. -/
def reportBreaker (t : Telegram) : Option BreakerState :=
  if t.value = 0 then some .parked else if t.value = 1 then some .working
  else if t.value = 2 then some .fault else none

/-- R29, R106: notice kinds 1 to 3, any other ignored. -/
def reportKind (t : Telegram) : Option SlotKind :=
  if t.value = 1 then some .stopDraw else if t.value = 2 then some .oversize
  else if t.value = 3 then some .caution else none

/-! ### What a management request names (R169 to R171) -/

/-- The pass a request's Table byte names; `none` above 3. -/
def requestPass (t : Telegram) : Option PassId := indexBelow 4 t.table.toNat

/-- Selectors of a Point Table field (R171). -/
inductive PointSel where
  | valid | station | point | role | pass | object | mode | scaleNum | scaleDen | response | tolerance
deriving DecidableEq, Repr

def PointSel.ofCode : Nat → Option PointSel
  | 0 => some .valid | 1 => some .station | 2 => some .point | 3 => some .role | 4 => some .pass
  | 5 => some .object | 6 => some .mode | 7 => some .scaleNum | 8 => some .scaleDen | 9 => some .response
  | 10 => some .tolerance | _ => none

/-- Selectors of a device parameter (R171). -/
inductive DeviceSel where
  | ownStation | noticeStation | silenceTime
deriving DecidableEq, Repr

def DeviceSel.ofCode : Nat → Option DeviceSel
  | 0 => some .ownStation | 1 => some .noticeStation | 2 => some .silenceTime | _ => none

/-- Selectors of a pass parameter (R171). -/
inductive ParamSel where
  | configured | len | area | sensorOffset | density (w : Wetness) | rounding | columnWeight | sensorWeight
  | divergenceLimit | staleTime | cushion | highFill | hysteresis | residue
  | enableI | enableO | enableU | enableV | enableG
deriving DecidableEq, Repr

def ParamSel.ofCode : Nat → Option ParamSel
  | 0 => some .configured | 1 => some .len | 2 => some .area | 3 => some .sensorOffset
  | 4 => some (.density .dry) | 5 => some (.density .damp) | 6 => some (.density .wet) | 7 => some (.density .slurry)
  | 8 => some .rounding | 9 => some .columnWeight | 10 => some .sensorWeight | 11 => some .divergenceLimit
  | 12 => some .staleTime | 13 => some .cushion | 14 => some .highFill | 15 => some .hysteresis | 16 => some .residue
  | 17 => some .enableI | 18 => some .enableO | 19 => some .enableU | 20 => some .enableV | 21 => some .enableG
  | _ => none

def Row.ofCode : Nat → Option Row
  | 0 => some .gateOpen | 1 => some .signalOn | 2 => some .breakerStart | _ => none

def TableColumn.ofCode : Nat → Option TableColumn
  | 0 => some .empty | 1 => some .low | 2 => some .normal | 3 => some .high | 4 => some .full | 5 => some .alert
  | _ => none

/-- A field of a stored table, as table identifier, entry index and field selector name it (R171). -/
inductive TableField where
  | point (i : Fin 128) (sel : PointSel)
  | device (sel : DeviceSel)
  | noticeEnable (c : NoticeClass)
  | noticePriority (c : NoticeClass)
  | param (p : PassId) (sel : ParamSel)
  | cell (p : PassId) (r : Row) (c : TableColumn)
  | holdTime (p : PassId) (r : Row)
  | opening (p : PassId) (w : Wetness)
  | grizzly (p : PassId) (t : TipId)
deriving DecidableEq, Repr

/-- The pass and the kind (0 parameters, 1 Interlock Table, 2 opening limits, 3 grizzly limits) of a per-pass table
identifier 16 + p, 32 + p, 48 + p, 64 + p (R171). -/
def passTable (ident : Nat) : Option (PassId × Nat) :=
  if 16 ≤ ident ∧ ident < 68 then (indexBelow 4 (ident % 16)).map fun p => (p, ident / 16 - 1) else none

/-- R171: the stored field that a request's Table, Extension and Qualifier name; `none` when any is out of range. -/
def tableField (t : Telegram) : Option TableField :=
  let index := t.ext.toNat
  let sel := t.qual.toNat
  match t.table.toNat with
  | 1 => (indexBelow 128 index).bind fun i => (PointSel.ofCode sel).map (.point i)
  | 2 => if index = 0 then (DeviceSel.ofCode sel).map .device else none
  | 3 => (NoticeClass.ofCode index).bind fun c =>
      match sel with
      | 0 => some (.noticeEnable c)
      | 1 => some (.noticePriority c)
      | _ => none
  | ident => (passTable ident).bind fun pk =>
      match pk with
      | (p, 0) => if index = 0 then (ParamSel.ofCode sel).map (.param p) else none
      | (p, 1) => (Row.ofCode index).bind fun r =>
          if sel = 6 then some (.holdTime p r) else (TableColumn.ofCode sel).map (.cell p r)
      | (p, 2) => if index = 0 then (Wetness.ofCode sel).map (.opening p) else none
      | (p, _) => if index = 0 then (indexBelow 3 sel).map (.grizzly p) else none

/-- The requests of R169, with WRITE-ENTRY and READ-ITEM split as the opcode table splits them. `none` for a field
stands for an addressing that R171 does not list. -/
inductive Request where
  | unknown
  | readItem
  | tableRead (f : Option TableField)
  | writeEntry (f : Option TableField)
  | writeValid (i : Fin 128)
  | writePointField (i : Fin 128) (sel : PointSel)
  | writeConfigured (p : PassId)
  | writeL (p : PassId)
  | writeGrizzlyLimit (p : PassId) (t : TipId)
  | writeLineSilenceTime
  | isolateRequest
  | isolateConfirm
  | restore
  | acknowledge
  | passReset
  | surveyLoad
  | clearFlags
  | timeSet
  | deviceReset
deriving DecidableEq, Repr

/-- R171, R172: which of the opcode table's write rows a WRITE-ENTRY of the field is. -/
def writeRequest : Option TableField → Request
  | some (.point i .valid) => .writeValid i
  | some (.point i sel) => .writePointField i sel
  | some (.param p .configured) => .writeConfigured p
  | some (.param p .len) => .writeL p
  | some (.grizzly p t) => .writeGrizzlyLimit p t
  | some (.device .silenceTime) => .writeLineSilenceTime
  | f => .writeEntry f

/-- R169: the request an MRQ's request code names. A READ-ITEM of read kind 1 is a table read; of any other read kind
it is taken as a status read, which then checks its read kind. -/
def requestOf (t : Telegram) : Request :=
  match t.point.toNat with
  | 1 => if t.value = 1 then .tableRead (tableField t) else .readItem
  | 2 => writeRequest (tableField t)
  | 3 => .isolateRequest
  | 4 => .isolateConfirm
  | 5 => .restore
  | 6 => .acknowledge
  | 7 => .passReset
  | 8 => .surveyLoad
  | 9 => .clearFlags
  | 10 => .timeSet
  | 11 => .deviceReset
  | _ => .unknown

/-- R9: a broadcast MRQ with request code 10. -/
def isTimeSet (t : Telegram) : Bool := t.kind == kindMRQ && t.point == 10

end Sys2Proof.Machine
end

