-- ==== Sys2Proof/Machine/Flags.lean ====
section
/-! DEFINITION. Condition codes, cause sets, sticky flags and the secondary set of an alarm record (R3, R70, R71,
R73, R152, R167). -/

namespace Sys2Proof.Machine

/-- R3: the pass condition code, from the pass state and, in RUNNING, the stored band. -/
def conditionCode (p : Pass) : Nat :=
  match p.mode with
  | .running => p.est.band.code
  | .alert => 5
  | .tripped => 6
  | .isolated => 7
  | .unconfigured => 8

/-- A Bool as 0 or 1, times a weight. -/
def flagValue (b : Bool) (weight : Nat) : Nat := if b then weight else 0

/-- R167 item 6: sum of I 1, O 2, U 4, V 8, G 16, plus 32 when G has direction LOW. -/
def CauseSet.code (c : CauseSet) : Nat :=
  flagValue c.i 1 + flagValue c.o 2 + flagValue c.u 4 + flagValue c.v 8 + flagValue c.g.isSome 16
    + flagValue (c.g == some .low) 32

/-- R167 item 7: sum of I 1, O 2, U 4, V 8, G 16. -/
def StickyFlags.code (f : StickyFlags) : Nat :=
  flagValue f.i 1 + flagValue f.o 2 + flagValue f.u 4 + flagValue f.v 8 + flagValue f.g 16

/-- R70: the flag of each condition in the set is set; the others keep their value. -/
def StickyFlags.mark (f : StickyFlags) (c : CauseSet) : StickyFlags :=
  { i := f.i || c.i, o := f.o || c.o, u := f.u || c.u, v := f.v || c.v, g := f.g || c.g.isSome }

/-- R72, R73: the enabled conditions of the set as alert causes, in the order O, U, V, G, I. -/
def enabledCauses (pr : PassParams) (c : CauseSet) : List Cause :=
  (if c.o && pr.enableO then [.overflow] else [])
    ++ (if c.u && pr.enableU then [.underflow] else [])
    ++ (if c.v && pr.enableV then [.invalid] else [])
    ++ (match c.g with
        | some .high => if pr.enableG then [.divergenceHigh] else []
        | some .low => if pr.enableG then [.divergenceLow] else []
        | none => [])
    ++ (if c.i && pr.enableI then [.inexact] else [])

/-- A cause code joins a set kept in code order, each code held once (R152). -/
def insertCause (c : Cause) : List Cause → List Cause
  | [] => [c]
  | d :: ds => if c.code < d.code then c :: d :: ds else if c = d then d :: ds else d :: insertCause c ds

/-- R167 item 10 index 2: the sum of 2 to the power (code − 1). -/
def secondaryCode (l : List Cause) : Nat := (l.map fun c => 2 ^ (c.code - 1)).sum

end Sys2Proof.Machine
end

