-- ==== Sys2Proof/Machine/Ports.lean ====
section
/-! DEFINITION. The transmit queues, their arbiters and the notice list (chapter 1, sections 1.4 and 1.5; chapter
11). A notice entry and a queued telegram become available to an idle line at the moment they are made or placed, and
its arbiter then chooses at once (R13; DEDUCED, log entry 8). -/

namespace Sys2Proof.Machine

/-! ### Classes -/

/-- R10, R14: an Answer is a VRD, an MRP of the responder, or on the Field Port a REFUSED-PORT MRP. -/
def Queued.isAnswer (q : Queued) : Bool :=
  match q.cls with
  | .verdict | .reply _ | .refusedPort => true
  | _ => false

def Queued.isRelayed (q : Queued) : Bool :=
  match q.cls with
  | .relayed => true
  | _ => false

def Queued.isVerdict (q : Queued) : Bool :=
  match q.cls with
  | .verdict => true
  | _ => false

def Queued.isReply (q : Queued) : Bool :=
  match q.cls with
  | .reply _ => true
  | _ => false

def Queued.isRefusedPort (q : Queued) : Bool :=
  match q.cls with
  | .refusedPort => true
  | _ => false

/-- A safe-direction action telegram (R15). -/
def Queued.isSafeAction (q : Queued) : Bool :=
  match q.cls with
  | .action _ .safe => true
  | _ => false

/-- An action telegram of actuator `a` (R10). -/
def Queued.isActionOf (a : Actuator) (q : Queued) : Bool :=
  match q.cls with
  | .action b _ => decide (b = a)
  | _ => false

/-- The DONE reply of a DEVICE-RESET (R17). -/
def Queued.endsInReset (q : Queued) : Bool :=
  match q.cls with
  | .reply b => b
  | _ => false

/-- R11: a relayed RPT with the same (Source, Point) as the relayed RPT `q`. -/
def sameReport (q x : Queued) : Bool :=
  x.isRelayed && x.tel.kind == kindRPT && x.tel.src == q.tel.src && x.tel.point == q.tel.point

/-! ### Placing into a queue (R10, R11) -/

/-- The first element that satisfies `f` is replaced by `x`. -/
def replaceFirst {α : Type} (f : α → Bool) (x : α) : List α → List α
  | [] => []
  | y :: ys => if f y then x :: ys else y :: replaceFirst f x ys

/-- The oldest telegram of the first class that has one is removed, and `q` joins at the back (R11). A queue with
none of the classes cannot arise (R11's last paragraph); there `q` is lost (DESIGN CHOICE, log entry 9). -/
def displace (q : Queued) : List (Queued → Bool) → List Queued → List Queued
  | [], queue => queue
  | f :: fs, queue => if queue.any f then queue.eraseP f ++ [q] else displace q fs queue

/-- R11: the queue after a telegram is placed in it while it holds 48, and whether the overrun flag is set. -/
def enqueueFull (q : Queued) (queue : List Queued) : List Queued × Bool :=
  match q.cls with
  | .relayed =>
    if q.tel.kind = kindRPT ∧ queue.any (sameReport q) then (replaceFirst (sameReport q) q queue, false)
    else (queue, true)
  | .verdict | .reply _ => (displace q [Queued.isRelayed, Queued.isVerdict, Queued.isReply] queue, true)
  | .action _ _ | .refusedPort => (displace q [Queued.isRelayed, Queued.isRefusedPort] queue, true)

/-- R10, R11: the queue after `q` is placed in it, and whether the overrun flag is set. -/
def enqueue (q : Queued) (queue : List Queued) : List Queued × Bool :=
  if queue.length < Config.txCapacity then (queue ++ [q], false) else enqueueFull q queue

/-! ### Notices (R164 to R166) -/

def NoticeTable.get (n : NoticeTable) : NoticeClass → NoticeControl
  | .band => n.band | .alert => n.alert | .trip => n.trip | .actionFail => n.actionFail | .forced => n.forced
  | .slot => n.slot | .restart => n.restart | .overrun => n.overrun

def NoticeTable.set (n : NoticeTable) (c : NoticeClass) (x : NoticeControl) : NoticeTable :=
  match c with
  | .band => { n with band := x }
  | .alert => { n with alert := x }
  | .trip => { n with trip := x }
  | .actionFail => { n with actionFail := x }
  | .forced => { n with forced := x }
  | .slot => { n with slot := x }
  | .restart => { n with restart := x }
  | .overrun => { n with overrun := x }

/-- The entry is the one for this source and class (R165). -/
def NoticeEntry.isFor (src : NoticeSource) (cls : NoticeClass) (e : NoticeEntry) : Bool :=
  decide (e.source = src ∧ e.cls = cls)

def NoticeEntry.isHigh (e : NoticeEntry) : Bool := decide (e.priority = .high)

/-- R165: further raises add their number to the count, up to 255; the detail is that of the last. -/
def NoticeEntry.bump (times detail : Nat) (e : NoticeEntry) : NoticeEntry :=
  { e with count := min (e.count + times) Config.countCeiling, detail := detail }

/-- R166: the NTC telegram of a notice entry, built when it is chosen. -/
def noticeTelegram (dev : DeviceParams) (e : NoticeEntry) : Telegram :=
  withCheck
    { dest := dev.noticeStation, src := dev.ownStation, kind := kindNTC, point := BitVec.ofNat 8 e.cls.code, tag := 0,
      qual := BitVec.ofNat 8 e.source.code, ann := BitVec.ofNat 8 e.count, table := 0,
      value := BitVec.ofNat 32 e.detail, ext := 0, check := 0 }

/-! ### The Control Port (R13, R14) -/

/-- The first queued telegram that satisfies `f` is chosen for sending. -/
def Port.choose (f : Queued → Bool) (p : Port) : Option Port :=
  (p.queue.find? f).map fun q =>
    { p with queue := p.queue.eraseP f, sending := some { tel := q.tel, endsInReset := q.endsInReset } }

/-- The first notice entry that satisfies `f` is removed from the list and sent as an NTC (R14, R166). -/
def ControlSide.sendNotice (dev : DeviceParams) (f : NoticeEntry → Bool) (c : ControlSide) : Option ControlSide :=
  (c.notices.find? f).map fun e =>
    { port := { c.port with sending := some { tel := noticeTelegram dev e, endsInReset := false } }
      notices := c.notices.eraseP f }

/-- R14: on an idle line the arbiter chooses the oldest Answer, else the earliest-made high-priority notice, else the
oldest relayed telegram, else the earliest-made low-priority notice. -/
def ControlSide.arbitrate (dev : DeviceParams) (c : ControlSide) : ControlSide :=
  match c.port.sending with
  | some _ => c
  | none =>
    match c.port.choose Queued.isAnswer with
    | some p => { c with port := p }
    | none =>
      match c.sendNotice dev NoticeEntry.isHigh with
      | some c' => c'
      | none =>
        match c.port.choose Queued.isRelayed with
        | some p => { c with port := p }
        | none => (c.sendNotice dev fun _ => true).getD c

/-- R165: `times` raises of one source and class that coalesce, the last with `detail`. A disabled class records nothing;
an existing entry takes the raises; otherwise an entry is made at the back and is then available to the arbiter. -/
def ControlSide.raiseMany (tb : Tables) (src : NoticeSource) (cls : NoticeClass) (times detail : Nat) (c : ControlSide) :
    ControlSide :=
  if !(tb.notices.get cls).enabled then c
  else if c.notices.any (NoticeEntry.isFor src cls) then
    { c with notices := c.notices.map fun e => if e.isFor src cls then e.bump times detail else e }
  else
    ControlSide.arbitrate tb.device
      { c with notices := c.notices ++
          [{ source := src, cls := cls, priority := (tb.notices.get cls).priority
             count := min times Config.countCeiling, detail := detail }] }

/-- R165: a raise of a notice. -/
def ControlSide.raise (tb : Tables) (src : NoticeSource) (cls : NoticeClass) (detail : Nat) (c : ControlSide) :
    ControlSide := c.raiseMany tb src cls 1 detail

/-- R12: an overrun of the port with detail `port` (0 Control, 1 Field) raises an OVERRUN notice of the device. -/
def ControlSide.raiseOverrun (tb : Tables) (port : Nat) (c : ControlSide) : ControlSide :=
  c.raise tb .device .overrun port

/-- R10 to R13: a telegram is placed in the Control Port transmit queue. -/
def ControlSide.place (tb : Tables) (q : Queued) (c : ControlSide) : ControlSide :=
  let (queue, lost) := enqueue q c.port.queue
  let placed := { c with port := { c.port with queue := queue, overrun := c.port.overrun || lost } }
  (if lost then placed.raiseOverrun tb 0 else placed).arbitrate tb.device

/-! ### The Field Port (R13, R15) -/

/-- R15: the oldest safe-direction action telegram if one is queued, otherwise the oldest telegram of any class. -/
def fieldChoice (queue : List Queued) : Option (Queued × List Queued) :=
  match queue.find? Queued.isSafeAction with
  | some q => some (q, queue.eraseP Queued.isSafeAction)
  | none =>
    match queue with
    | [] => none
    | q :: rest => some (q, rest)

/-- The entry is the ISSUED entry of actuator `a` (R135). -/
def ActionEntry.isIssuedFor (a : Actuator) (e : ActionEntry) : Bool :=
  match e.state with
  | .issued _ _ _ => decide (e.actuator = a)
  | .waiting => false

/-- The entry is a WAITING entry of actuator `a` (R135). -/
def ActionEntry.isWaitingFor (a : Actuator) (e : ActionEntry) : Bool :=
  match e.state with
  | .issued _ _ _ => false
  | .waiting => decide (e.actuator = a)

/-- The telegram standing of an ISSUED entry becomes SENT or QUEUED (R138, R145). -/
def ActionEntry.withStanding (sent : Bool) (e : ActionEntry) : ActionEntry :=
  match e.state with
  | .issued d _ t => { e with state := .issued d sent t }
  | .waiting => e

/-- The telegram standing of the ISSUED entry of actuator `a` is set. -/
def setStanding (a : Actuator) (sent : Bool) (l : List ActionEntry) : List ActionEntry :=
  l.map fun e => if e.isIssuedFor a then e.withStanding sent else e

/-- The standing of the entry whose telegram was chosen becomes SENT (R138). -/
def noteSent (q : Queued) (l : List ActionEntry) : List ActionEntry :=
  match q.cls with
  | .action a _ => setStanding a true l
  | _ => l

/-- R13, R15: on an idle line the Field Port arbiter chooses the next telegram. -/
def Traffic.fieldArbitrate (tr : Traffic) : Traffic :=
  match tr.field.sending with
  | some _ => tr
  | none =>
    match fieldChoice tr.field.queue with
    | none => tr
    | some (q, rest) =>
      { tr with
        field := { tr.field with queue := rest, sending := some { tel := q.tel, endsInReset := false } }
        actions := noteSent q tr.actions }

/-- R10 to R13: a telegram is placed in the Field Port transmit queue. -/
def Traffic.placeField (tb : Tables) (q : Queued) (tr : Traffic) : Traffic :=
  let (queue, lost) := enqueue q tr.field.queue
  let placed := { tr with field := { tr.field with queue := queue, overrun := tr.field.overrun || lost } }
  Traffic.fieldArbitrate (if lost then { placed with ctl := placed.ctl.raiseOverrun tb 1 } else placed)

/-- R10: a telegram of actuator `a` still queued is removed without being sent. -/
def Traffic.withdraw (a : Actuator) (tr : Traffic) : Traffic :=
  { tr with field := { tr.field with queue := tr.field.queue.filter fun q => !q.isActionOf a } }

/-! ### Placing toward the control room -/

/-- A telegram is placed in the Control Port transmit queue. -/
def Traffic.placeControl (tb : Tables) (q : Queued) (tr : Traffic) : Traffic :=
  { tr with ctl := tr.ctl.place tb q }

/-- A notice is raised (R165). -/
def Traffic.raise (tb : Tables) (src : NoticeSource) (cls : NoticeClass) (detail : Nat) (tr : Traffic) : Traffic :=
  { tr with ctl := tr.ctl.raise tb src cls detail }

/-- Raises that coalesce (R165, R124). -/
def Traffic.raiseMany (tb : Tables) (src : NoticeSource) (cls : NoticeClass) (times detail : Nat) (tr : Traffic) : Traffic :=
  { tr with ctl := tr.ctl.raiseMany tb src cls times detail }

/-- R4: the VRD telegram of an answer. -/
def verdictTelegram (tb : Tables) (r : Requester) (ans : Answer) (reason : Reason) (value : Nat) : Telegram :=
  withCheck
    { dest := r.src, src := tb.device.ownStation, kind := kindVRD, point := r.point, tag := r.tag, qual := ans.code,
      ann := BitVec.ofNat 8 reason.code, table := 0, value := BitVec.ofNat 32 value, ext := 0, check := 0 }

/-- R4: the command's source is answered. -/
def Traffic.answer (tb : Tables) (r : Requester) (ans : Answer) (reason : Reason) (value : Nat) (tr : Traffic) :
    Traffic :=
  tr.placeControl tb { tel := verdictTelegram tb r ans reason value, cls := .verdict }

/-- R169, R8: the MRP that answers an MRQ. -/
def replyTelegram (own : Byte) (t : Telegram) (st : Status) (value : Word) : Telegram :=
  withCheck
    { dest := t.src, src := own, kind := kindMRP, point := t.point, tag := t.tag, qual := st.code, ann := 0,
      table := t.table, value := value, ext := 0, check := 0 }

end Sys2Proof.Machine
end

