-- ==== Sys2Proof/Machine/State.lean ====
section
/-! DEFINITION. The machine's state as plain data, the reasons a step can stop (none), and the state after reset. -/

namespace Sys2Proof.Machine

/-- A fault stops the machine. The manual gives every command of this block an effect in every state, so there is no
fault: the type is empty, and that no command faults is so by its type. -/
inductive Fault where
deriving DecidableEq, Repr

/-- A refusal: the model gives a command no meaning. Raised by `exec` alone, for a row it does not model (safe: the
model stops where the hardware goes on). No row is refused. -/
inductive Refusal where
  | notModelled (mnemonic : String)
deriving DecidableEq, Repr

/-- The pending isolation of R173: a pass and a requesting station. -/
structure PendingIsolation where
  pass : PassId
  station : Byte
deriving DecidableEq, Repr

/-- The whole state of the part, and the queue of the commands that are waiting. -/
structure State where
  /-- The stored tables (R171) and the isolation marks (R150). -/
  tables : Tables
  /-- Columns, estimates, object records, slots, pass states and alarm records of the four passes. -/
  passes : Quad Pass
  /-- Ports, notice list, Hold Pool, Action Queue, originated-tag counter, gate histories. -/
  traffic : Traffic
  /-- The line-silence timer (R16): `none` when stopped, otherwise its remaining duration. -/
  silence : Option Nat
  /-- The time base (R174). -/
  time : Word
  /-- The pending isolation (R173). -/
  pendingIsolation : Option PendingIsolation
  /-- The isolation bar (R173). -/
  bar : Bool
  /-- The reset cause (R175). -/
  resetCause : ResetCause
  /-- A DEVICE-RESET has been taken and is not yet performed (R17). -/
  resetPending : Bool
  /-- The MODEL's own field: how many free values have been drawn (Config.expiryChoice, Config.silenceOrder); 0 at reset is
  a DESIGN CHOICE, log entry 17. -/
  draws : Nat
  /-- The MODEL's own field: the commands that are waiting, first in, first out (DESIGN CHOICE, log entry 17). -/
  pending : List Instr
deriving DecidableEq, Repr

/-- The part right after power-on, as delivered: factory tables, every pass UNCONFIGURED, and start-up (R176) taken
whole, which for a part with no configured pass only starts the line-silence timer and raises the RESTART notice. Its
NTC is chosen at once on the idle Control Port line (R13, R14). That the part is shown after its start-up is a DESIGN
CHOICE, log entry 7. -/
def State.reset : State :=
  { tables := factoryTables
    passes := Quad.all (clearedPass .unconfigured)
    traffic := clearedTraffic.raise factoryTables .device .restart 1
    silence := startedSilence 100
    time := 0
    pendingIsolation := none
    bar := false
    resetCause := .powerOn
    resetPending := false
    draws := 0
    pending := [] }

/-- What one command answers. -/
abbrev Result := Host.Outcome State Fault Refusal

end Sys2Proof.Machine
end

