-- ==== Sys2Proof/Machine/Ops.lean ====
section
/-! DEFINITION. The named operations over the state: reading and updating a pass, the Point Table's lookups (R26,
R28), the points and tolerance of an actuator (R25, R96), and the facts of a pass that several blocks read. -/

namespace Sys2Proof.Machine

/-! ### Parts of the state -/

def State.view (s : State) : View := { tables := s.tables, passes := s.passes }

def State.pass (s : State) (p : PassId) : Pass := s.passes.get p

def State.params (s : State) (p : PassId) : PassParams := s.tables.params.get p

def State.setPass (p : PassId) (x : Pass) (s : State) : State := { s with passes := s.passes.set p x }

def State.setTip (p : PassId) (t : TipId) (r : TipRecord) (s : State) : State :=
  s.setPass p { s.pass p with tips := (s.pass p).tips.set t r }

def State.setChute (p : PassId) (c : ChuteId) (r : ChuteRecord) (s : State) : State :=
  s.setPass p { s.pass p with chutes := (s.pass p).chutes.set c r }

/-- A change of the traffic that reads the rest of the state as it stands. -/
def State.onTraffic (f : View → Traffic → Traffic) (s : State) : State :=
  { s with traffic := f s.view s.traffic }

/-- A notice is raised (R165). -/
def State.raise (src : NoticeSource) (cls : NoticeClass) (detail : Nat) (s : State) : State :=
  s.onTraffic fun v tr => tr.raise v.tables src cls detail

/-- All passes, all tip points, all chutes, in number order. -/
def allPasses : List PassId := [0, 1, 2, 3]
def allTips : List TipId := [0, 1, 2]
def allChutes : List ChuteId := [0, 1]

/-! ### The Point Table (R18, R25, R26, R28) -/

/-- The valid entry with this station and point, if there is one: at most one exists (R23). -/
def findPoint (tb : Tables) (station point : Byte) : Option PointEntry :=
  tb.points.toList.find? fun e => decide (e.valid = true ∧ e.station = some station ∧ e.point = some point)

/-- A valid entry as a hit: its role and pass are written (R21). The Object of a pass-level role is not read. -/
def hitOf (e : PointEntry) : Option Hit :=
  match e.role, e.pass with
  | some r, some p => some { entry := e, role := r, pass := p, object := e.object.getD 0 }
  | _, _ => none

/-- R26, R28: the lookup by (station, point). -/
def lookup (tb : Tables) (station point : Byte) : Option Hit := (findPoint tb station point).bind hitOf

/-- The valid entry that gives a role on an object of a pass (R23: at most one). -/
def findRole (tb : Tables) (r : Role) (p : PassId) (o : Fin 3) : Option PointEntry :=
  tb.points.toList.find? fun e =>
    decide (e.valid = true ∧ e.role = some r ∧ e.pass = some p ∧ (r.isPassLevel = true ∨ e.object = some o))

/-- R25: the command point of an actuator. -/
def commandPoint (tb : Tables) (a : Actuator) : Option PointEntry := findRole tb a.commandRole a.pass a.object

/-- R25: the feedback point of an actuator. -/
def feedbackPoint (tb : Tables) (a : Actuator) : Option PointEntry := findRole tb a.feedbackRole a.pass a.object

def hasCommandPoint (tb : Tables) (a : Actuator) : Bool := (commandPoint tb a).isSome

/-- R25, R96: the tolerance of a gate, 3 % where the pass has no valid GATE-SET entry for the chute. -/
def gateTolerance (tb : Tables) (p : PassId) (c : ChuteId) : Nat :=
  ((commandPoint tb (.gate p c)).bind PointEntry.tolerance).getD Config.defaultTolerance

/-- The actuators of a pass in the order signals, gates, breakers (R155, R176). -/
def safeStateOrder (p : PassId) : List Actuator :=
  [.signal p 0, .signal p 1, .signal p 2, .gate p 0, .gate p 1, .breaker p 0, .breaker p 1, .breaker p 2]

/-- The actuators of a pass in the order gates, signals, breakers (R124). -/
def standingOrder (p : PassId) : List Actuator :=
  [.gate p 0, .gate p 1, .signal p 0, .signal p 1, .signal p 2, .breaker p 0, .breaker p 1, .breaker p 2]

/-! ### Facts of a pass -/

/-- R34: the head wetness, Dry for an empty column. -/
def headWetness (c : Column) : Wetness :=
  match c.charges with
  | [] => .dry
  | h :: _ => h.wetness

/-- R34: the column total. -/
def columnTotal (c : Column) : Nat := (c.charges.map Charge.remaining).sum

/-- R50: the grizzly accumulator total. -/
def accumTotal (c : Column) : Nat := c.accums.at0.tonnage + c.accums.at1.tonnage + c.accums.at2.tonnage

/-- R105: the opening limit of the pass, for its head wetness. -/
def openingLimit (v : View) (p : PassId) : Nat :=
  byWetness (v.tables.openings.get p) (headWetness (v.passes.get p).column)

/-- R96: the gate is confirmed at an opening greater than its tolerance. -/
def openAboveTolerance (v : View) (p : PassId) (c : ChuteId) : Bool :=
  match ((v.passes.get p).chutes.get c).gate with
  | none => false
  | some g => decide (gateTolerance v.tables p c < g)

/-- A pass in service: RUNNING, ALERT or TRIPPED (R172). -/
def PassState.inService : PassState → Bool
  | .running | .alert | .tripped => true
  | .isolated | .unconfigured => false

/-- RUNNING or ALERT: the states in which the standing check runs (R123) and commands are judged (R150). -/
def PassState.isLive : PassState → Bool
  | .running | .alert => true
  | .tripped | .isolated | .unconfigured => false

/-! ### The Action Queue as others read it -/

/-- The ISSUED entry of an actuator (R135: at most one). -/
def issuedEntry (tr : Traffic) (a : Actuator) : Option ActionEntry := tr.actions.find? (ActionEntry.isIssuedFor a)

/-- The Action Queue holds an ISSUED entry of the actuator in this direction. -/
def hasIssued (tr : Traffic) (a : Actuator) (d : Direction) : Bool :=
  tr.actions.any fun e => e.isIssuedFor a && decide (e.direction = d)

/-- The Action Queue holds a non-safe entry of the actuator, WAITING or ISSUED (R116, R88). -/
def hasNonSafe (tr : Traffic) (a : Actuator) : Bool :=
  tr.actions.any fun e => decide (e.actuator = a ∧ e.direction = .nonSafe)

/-- The Action Queue holds an entry for the actuator. -/
def hasEntry (tr : Traffic) (a : Actuator) : Bool := tr.actions.any fun e => decide (e.actuator = a)

/-- The Action Queue holds an entry for any actuator of the pass (R24, R136). -/
def passBusy (tr : Traffic) (p : PassId) : Bool := tr.actions.any fun e => decide (e.actuator.pass = p)

/-! ### At rest (R158) -/

/-- R158: the actuator is confirmed in its safe state. -/
def confirmedSafe (v : View) (a : Actuator) : Bool :=
  match a with
  | .gate p c =>
    match ((v.passes.get p).chutes.get c).gate with
    | none => false
    | some g => decide (g ≤ gateTolerance v.tables p c)
  | .signal p t => decide (((v.passes.get p).tips.get t).signal = .isOff)
  | .breaker p t => decide (((v.passes.get p).tips.get t).breaker = .parked)

/-- R158: every actuator of the pass that has a command point is confirmed safe and has no Action Queue entry. -/
def atRest (v : View) (tr : Traffic) (p : PassId) : Bool :=
  (safeStateOrder p).all fun a => !hasCommandPoint v.tables a || (confirmedSafe v a && !hasEntry tr a)

end Sys2Proof.Machine
end

