-- ==== Sys2Proof/Machine/Verdict.lean ====
section
/-! DEFINITION. The verdict procedure (chapter 7, R113 to R118). It changes no state. -/

namespace Sys2Proof.Machine

def InterlockTable.row (t : InterlockTable) : Row → InterlockRow
  | .gateOpen => t.gateOpen | .signalOn => t.signalOn | .breakerStart => t.breakerStart

def InterlockTable.setRow (t : InterlockTable) (r : Row) (x : InterlockRow) : InterlockTable :=
  match r with
  | .gateOpen => { t with gateOpen := x }
  | .signalOn => { t with signalOn := x }
  | .breakerStart => { t with breakerStart := x }

def InterlockRow.cell (r : InterlockRow) : TableColumn → Cell
  | .empty => r.empty | .low => r.low | .normal => r.normal | .high => r.high | .full => r.full | .alert => r.alert

def InterlockRow.setCell (r : InterlockRow) (c : TableColumn) (x : Cell) : InterlockRow :=
  match c with
  | .empty => { r with empty := x }
  | .low => { r with low := x }
  | .normal => { r with normal := x }
  | .high => { r with high := x }
  | .full => { r with full := x }
  | .alert => { r with alert := x }

/-- The column a band stands for (R113). -/
def Band.column : Band → TableColumn
  | .empty => .empty | .low => .low | .normal => .normal | .high => .high | .full => .full

/-- R113: the interlock column of a pass, from its state and stored band; none in the other states. -/
def interlockColumn (p : Pass) : Option TableColumn :=
  match p.mode with
  | .running => some p.est.band.column
  | .alert => some .alert
  | .tripped | .isolated | .unconfigured => none

/-- The cell of the actuator's row in the interlock column of its pass. -/
def interlockCell (v : View) (a : Actuator) : Option Cell :=
  (interlockColumn (v.passes.get a.pass)).map fun c => ((v.tables.interlock.get a.pass).row a.row).cell c

/-- The hold time of the actuator's row (R111). -/
def holdTime (v : View) (a : Actuator) : Nat := ((v.tables.interlock.get a.pass).row a.row).holdTime

/-- Check 1 (R115): a pass TRIPPED or ISOLATED refuses. A command never reaches the Unit for an UNCONFIGURED pass
(R26), and there the check refuses as well (DESIGN CHOICE, log entry 12). -/
def stateCheck (v : View) (a : Actuator) : List (Severity × Reason) :=
  if (v.passes.get a.pass).mode.isLive then [] else [(.refuse, .passState)]

/-- Check 2 (R115): the table cell; a CLAMP cell gives PASS here. -/
def tableCheck (v : View) (a : Actuator) : List (Severity × Reason) :=
  match interlockCell v a with
  | some .hold => [(.hold, .table)]
  | some .refuse => [(.refuse, .table)]
  | some .pass | some (.clamp _) | none => []

/-- Check 3 (R115, R116): each precondition not met gives HOLD, in order. -/
def preconditionCheck (v : View) (tr : Traffic) (a : Actuator) : List (Severity × Reason) :=
  match a with
  | .gate p c =>
    (if ((v.passes.get p).chutes.get c).wagon = .present then [] else [(.hold, .wagon)])
      ++ (match (v.passes.get p).slot with
          | some n => if n.kind = .stopDraw then [(.hold, .notice)] else []
          | none => [])
  | .signal p t =>
    (if ((v.passes.get p).tips.get t).breaker = .parked ∧ hasNonSafe tr (.breaker p t) = false then []
      else [(.hold, .breaker)])
      ++ (if ((v.passes.get p).tips.get t).standing = .below then [] else [(.hold, .grizzly)])
  | .breaker p t =>
    if ((v.passes.get p).tips.get t).signal = .isOff ∧ hasNonSafe tr (.signal p t) = false then []
    else [(.hold, .signal)]

/-- Check 4 (R115): for GATE-OPEN, an opening limit of 0 refuses. -/
def wetnessCheck (v : View) (a : Actuator) : List (Severity × Reason) :=
  match a with
  | .gate p _ => if openingLimit v p = 0 then [(.refuse, .wet)] else []
  | .signal _ _ | .breaker _ _ => []

/-- R117: the forwarded opening: the least of the request, the opening limit, the bound of a CLAMP cell and 100. -/
def forwardedOpening (v : View) (a : Actuator) (r : Nat) : Nat :=
  let bound := min (openingLimit v a.pass) 100
  match interlockCell v a with
  | some (.clamp n) => min r (min n bound)
  | _ => min r bound

/-- R115: for a SIGNAL-ON or BREAKER-START the forwarded value is always 1. -/
def forwardedValue (v : View) (a : Actuator) (r : Nat) : Nat :=
  match a with
  | .gate _ _ => forwardedOpening v a r
  | .signal _ _ | .breaker _ _ => 1

/-- R117: the reason of a CLAMP. -/
def clampReason (v : View) (a : Actuator) (forwarded : Nat) : Reason :=
  if interlockCell v a = some (.clamp forwarded) then .table
  else if forwarded = 100 then .noReason
  else .wet

/-- Check 5 (R115, R117): for GATE-OPEN, CLAMP when the forwarded opening is below the opening asked for. -/
def clampCheck (v : View) (a : Actuator) (r : Nat) : List (Severity × Reason) :=
  match a with
  | .gate _ _ =>
    let f := forwardedOpening v a r
    if f < r then [(.clamp, clampReason v a f)] else []
  | .signal _ _ | .breaker _ _ => []

/-- The outcomes of the five checks, in their order (R115). -/
def checks (v : View) (tr : Traffic) (a : Actuator) (r : Nat) : List (Severity × Reason) :=
  stateCheck v a ++ tableCheck v a ++ preconditionCheck v tr a ++ wetnessCheck v a ++ clampCheck v a r

/-- The first outcome of severity `sev` in a list of checks. -/
def firstOf (sev : Severity) (l : List (Severity × Reason)) : Option (Severity × Reason) :=
  l.find? fun x => decide (x.1 = sev)

/-- R115: the most severe outcome that any check gave, with the reason of the first check that gave it. -/
def mostSevere (l : List (Severity × Reason)) : Severity × Reason :=
  match firstOf .refuse l with
  | some x => x
  | none =>
    match firstOf .hold l with
    | some x => x
    | none => (firstOf .clamp l).getD (.pass, .noReason)

/-- R115: the verdict procedure for one non-safe command of actuator `a` with requested value `r`. -/
def judge (v : View) (tr : Traffic) (a : Actuator) (r : Nat) : Verdict :=
  let (sev, reason) := mostSevere (checks v tr a r)
  { severity := sev, reason := reason, value := forwardedValue v a r }

end Sys2Proof.Machine
end

