-- ==== Sys2Proof/Machine/Actions.lean ====
section
/-! DEFINITION. The Action Queue (chapter 9): issue, admission, confirmation and promotion, the safe-direction
procedure, and the removal of a failed entry. Handing a failure's cause to the pass stands in Supervisor.lean. -/

namespace Sys2Proof.Machine

/-! ### Movement history (R98) -/

/-- R98: an issued open sets both items to OPEN; an issued close sets the last issued direction to CLOSE. -/
def noteIssue (a : Actuator) (d : Direction) (h : Quad (Duo GateHistory)) : Quad (Duo GateHistory) :=
  match a with
  | .gate p c =>
    let new : GateHistory :=
      match d with
      | .nonSafe => { reference := .opened, lastIssued := .opening }
      | .safe => { (h.get p).get c with lastIssued := .closing }
    h.set p ((h.get p).set c new)
  | .signal _ _ | .breaker _ _ => h

/-- R98, R140: a confirmed close sets the movement reference to CLOSED. -/
def noteRetired (a : Actuator) (d : Direction) (h : Quad (Duo GateHistory)) : Quad (Duo GateHistory) :=
  match a, d with
  | .gate p c, .safe => h.set p ((h.get p).set c { (h.get p).get c with reference := .closed })
  | _, _ => h

/-! ### Issue (R138) -/

/-- R138: the action telegram of an entry, sent to its command point. -/
def actionTelegram (own : Byte) (cp : PointEntry) (e : ActionEntry) (value : Nat) : Telegram :=
  let (src, tag) := match e.origin with
    | .station r => (r.src, r.tag)
    | .originated tag => (own, tag)
  withCheck
    { dest := cp.station.getD 0, src := src, kind := kindCMD, point := cp.point.getD 0, tag := tag,
      qual := e.carried.qual, ann := e.carried.ann, table := e.carried.table, value := BitVec.ofNat 32 value,
      ext := e.carried.ext, check := 0 }

/-- The oldest WAITING entry of the actuator becomes ISSUED with the value, deadline and telegram given. -/
def markIssued (a : Actuator) (value deadline : Nat) (tel : Telegram) : List ActionEntry → List ActionEntry
  | [] => []
  | e :: es =>
    if e.isWaitingFor a then { e with value := value, state := .issued deadline false tel } :: es
    else e :: markIssued a value deadline tel es

/-- R138: the oldest WAITING entry of the actuator is issued with `value`: its telegram is built and placed, its
deadline timer started with the Response time of the command point, the gate's history set. The command point of
every entry is valid while it stands (R136); without one nothing is issued (DESIGN CHOICE, log entry 12). -/
def Traffic.issue (v : View) (a : Actuator) (value : Nat) (tr : Traffic) : Traffic :=
  match commandPoint v.tables a, tr.actions.find? (ActionEntry.isWaitingFor a) with
  | some cp, some e =>
    let tel := actionTelegram v.tables.device.ownStation cp e value
    Traffic.placeField v.tables { tel := tel, cls := .action a e.direction }
      { tr with
        actions := markIssued a value (cp.response.getD 0) tel tr.actions
        history := noteIssue a e.direction tr.history }
  | _, _ => tr

/-! ### Answers for entries that leave -/

/-- R146, 9.7: an admitted entry's source is answered; an originated entry receives no answer. -/
def Traffic.answerEntry (tb : Tables) (e : ActionEntry) (ans : Answer) (reason : Reason) (value : Nat)
    (tr : Traffic) : Traffic :=
  match e.origin with
  | .station r => tr.answer tb r ans reason value
  | .originated _ => tr

/-- The WAITING entries of the actuator are removed, in admission order, each answered CANCELLED (R143, R144). -/
def Traffic.cancelWaiting (tb : Tables) (a : Actuator) (reason : Reason) (tr : Traffic) : Traffic :=
  (tr.actions.filter (ActionEntry.isWaitingFor a)).foldl
    (fun t e => t.answerEntry tb e .cancelled reason 0)
    { tr with actions := tr.actions.filter fun e => !e.isWaitingFor a }

/-- The ISSUED entry of the actuator is removed, and its telegram withdrawn if it is still queued (R140, R143). -/
def Traffic.removeIssued (a : Actuator) (tr : Traffic) : Traffic :=
  Traffic.withdraw a { tr with actions := tr.actions.eraseP (ActionEntry.isIssuedFor a) }

/-! ### Admission (R137) -/

/-- R137: a judged non-safe command is taken or turned away; the reason is `none` when it is taken. -/
def Traffic.enlist (v : View) (a : Actuator) (value : Nat) (r : Requester) (carried : Carried) (tr : Traffic) :
    Traffic × Option Reason :=
  let line := tr.actions.filter fun e => decide (e.actuator = a)
  let entry : ActionEntry :=
    { actuator := a, direction := .nonSafe, value := value, origin := .station r, carried := carried,
      state := .waiting }
  let joined := { tr with actions := tr.actions ++ [entry] }
  if Config.lineCapacity ≤ line.length then (tr, some .actuatorBusy)
  else if Config.actionCapacity ≤ tr.actions.length then (tr, some .queueFull)
  else if line.isEmpty then (joined.issue v a value, none)
  else (joined, none)

/-! ### Confirmation and promotion (R139, R140) -/

/-- R140: promotion over the WAITING entries of a line, oldest first: a PASS or CLAMP issues the entry and ends the
promotion; a HOLD or REFUSE removes it, answered CANCELLED, and the next is taken. -/
def Traffic.promoteLine (v : View) (a : Actuator) : List ActionEntry → Traffic → Traffic
  | [], tr => tr
  | e :: es, tr =>
    let vd := judge v tr a e.value
    match vd.severity with
    | .pass | .clamp =>
      let issued := tr.issue v a vd.value
      if vd.value < e.value then issued.answerEntry v.tables e .clamped vd.reason vd.value else issued
    | .hold | .refuse =>
      Traffic.promoteLine v a es
        (Traffic.answerEntry v.tables e .cancelled vd.reason 0
          { tr with actions := tr.actions.eraseP (ActionEntry.isWaitingFor a) })

/-- R140: the line of the actuator is promoted. -/
def Traffic.promote (v : View) (a : Actuator) (tr : Traffic) : Traffic :=
  tr.promoteLine v a (tr.actions.filter (ActionEntry.isWaitingFor a))

/-- R140: the ISSUED entry `e` is retired by confirmation, and its line promoted. -/
def Traffic.retire (v : View) (e : ActionEntry) (tr : Traffic) : Traffic :=
  let removed := tr.removeIssued e.actuator
  Traffic.promote v e.actuator { removed with history := noteRetired e.actuator e.direction removed.history }

/-- R139: the confirmed state, as the report has just set it, confirms the ISSUED entry. -/
def confirms (v : View) (e : ActionEntry) : Bool :=
  match e.actuator, e.direction with
  | .gate p c, .nonSafe =>
    match ((v.passes.get p).chutes.get c).gate with
    | none => false
    | some g =>
      let tol := gateTolerance v.tables p c
      decide (g ≤ e.value + tol ∧ e.value ≤ g + tol)
  | .gate p c, .safe =>
    match ((v.passes.get p).chutes.get c).gate with
    | none => false
    | some g => decide (g ≤ gateTolerance v.tables p c)
  | .signal p t, .nonSafe => decide (((v.passes.get p).tips.get t).signal = .isOn)
  | .signal p t, .safe => decide (((v.passes.get p).tips.get t).signal = .isOff)
  | .breaker p t, .nonSafe => decide (((v.passes.get p).tips.get t).breaker = .working)
  | .breaker p t, .safe => decide (((v.passes.get p).tips.get t).breaker = .parked)

/-- R139, R148: a confirmation candidate reaches the queue; without a matching ISSUED entry it changes nothing. -/
def Traffic.confirm (v : View) (a : Actuator) (tr : Traffic) : Traffic :=
  match issuedEntry tr a with
  | some e => if confirms v e then tr.retire v e else tr
  | none => tr

/-! ### Safe-direction commands (R144 to R146) -/

/-- R145: a safe command attaches to the ISSUED entry as a duplicate. A SENT telegram is placed again as a copy, and
the standing becomes QUEUED. -/
def Traffic.attach (v : View) (a : Actuator) (e : ActionEntry) (tr : Traffic) : Traffic :=
  match e.state with
  | .issued _ true tel =>
    Traffic.placeField v.tables { tel := tel, cls := .action a e.direction }
      { tr with actions := setStanding a false tr.actions }
  | .issued _ false _ | .waiting => tr

/-- The entry is WAITING. -/
def ActionEntry.isWaiting (e : ActionEntry) : Bool := decide (e.state = .waiting)

/-- R146: where the queue holds 32 entries the oldest WAITING entry of the whole queue is removed, answered CANCELLED
with reason ROOM. -/
def Traffic.makeRoom (tb : Tables) (tr : Traffic) : Traffic :=
  if tr.actions.length < Config.actionCapacity then tr
  else
    match tr.actions.find? ActionEntry.isWaiting with
    | some e =>
      Traffic.answerEntry tb e .cancelled .room 0 { tr with actions := tr.actions.eraseP ActionEntry.isWaiting }
    | none => tr

/-- R138, R144: the originator of a safe entry and the tag counter after it: an originated entry takes the counter's
value as its tag, and the counter advances. -/
def takeTag (origin : Option Requester) (counter : Byte) : Originator × Byte :=
  match origin with
  | some r => (.station r, counter)
  | none => (.originated counter, counter + 1)

/-- R144 steps 3 and 4: room is made where needed, and a new safe entry is made and issued. -/
def Traffic.issueSafe (v : View) (a : Actuator) (origin : Option Requester) (carried : Carried) (tr : Traffic) :
    Traffic :=
  let roomy := tr.makeRoom v.tables
  let (originator, counter) := takeTag origin roomy.tagCounter
  Traffic.issue v a 0
    { roomy with
      actions := roomy.actions ++
        [{ actuator := a, direction := .safe, value := 0, origin := originator, carried := carried,
           state := .waiting }]
      tagCounter := counter }

/-- R144: a safe-direction command, received (`some` requester) or originated (`none`), is taken. -/
def Traffic.takeSafe (v : View) (a : Actuator) (origin : Option Requester) (carried : Carried) (tr : Traffic) :
    Traffic :=
  let cancelled := tr.cancelWaiting v.tables a .safePreempt
  match issuedEntry cancelled a with
  | none => cancelled.issueSafe v a origin carried
  | some e =>
    match e.direction with
    | .safe => cancelled.attach v a e
    | .nonSafe =>
      Traffic.issueSafe v a origin carried
        (Traffic.removeIssued a (cancelled.answerEntry v.tables e .cancelled .safePreempt 0))

/-- The part originates the safe command for an actuator that has a command point (R25, R144). -/
def Traffic.originate (v : View) (a : Actuator) (tr : Traffic) : Traffic :=
  if hasCommandPoint v.tables a then tr.takeSafe v a none noCarried else tr

end Sys2Proof.Machine
end

