-- ==== Sys2Proof/Machine/HoldPool.lean ====
section
/-! DEFINITION. The Hold Pool (chapter 8): parking, supersede, re-judgement, expiry and purge. -/

namespace Sys2Proof.Machine

/-- The entry is the held entry of actuator `a` (R126: at most one). -/
def HeldEntry.isFor (a : Actuator) (e : HeldEntry) : Bool := decide (e.actuator = a)

/-- The entry is one of pass `p`. -/
def HeldEntry.isOf (p : PassId) (e : HeldEntry) : Bool := decide (e.actuator.pass = p)

/-- The held entry of an actuator leaves the pool. -/
def Traffic.unpark (a : Actuator) (tr : Traffic) : Traffic :=
  { tr with pool := tr.pool.filter fun e => !e.isFor a }

/-- R127: a HOLD verdict at arrival offers the command to the pool: HELD, or REFUSED with HOLD-FULL. -/
def Traffic.park (v : View) (a : Actuator) (t : Telegram) (reason : Reason) (tr : Traffic) : Traffic :=
  if tr.pool.length < Config.poolCapacity then
    Traffic.answer v.tables (requesterOf t) .held reason 0
      { tr with pool := tr.pool ++
          [{ actuator := a, requester := requesterOf t, value := t.value, carried := carriedOf t,
             timer := holdTime v a, reason := reason }] }
  else tr.answer v.tables (requesterOf t) .refused .holdFull 0

/-- R128: a received command removes the held entry of its actuator, answered SUPERSEDED. -/
def Traffic.supersede (tb : Tables) (a : Actuator) (tr : Traffic) : Traffic :=
  match tr.pool.find? (HeldEntry.isFor a) with
  | some e => (tr.unpark a).answer tb e.requester .superseded .noReason 0
  | none => tr

/-- R130: a released entry is offered to the Action Queue and answered RELEASED, or REFUSED if it is turned away. -/
def Traffic.release (v : View) (e : HeldEntry) (vd : Verdict) (tr : Traffic) : Traffic :=
  match (tr.unpark e.actuator).enlist v e.actuator vd.value e.requester e.carried with
  | (tr', some reason) => tr'.answer v.tables e.requester .refused reason 0
  | (tr', none) => tr'.answer v.tables e.requester .released vd.reason vd.value

/-- R129 to R131: one held entry is judged again. PASS or CLAMP releases it, REFUSE removes it, HOLD keeps it in its
place with the new reason. -/
def Traffic.rejudge (v : View) (tr : Traffic) (e : HeldEntry) : Traffic :=
  let vd := judge v tr e.actuator (requestedValue e.value)
  match vd.severity with
  | .pass | .clamp => tr.release v e vd
  | .refuse => (tr.unpark e.actuator).answer v.tables e.requester .refused vd.reason 0
  | .hold =>
    { tr with pool := tr.pool.map fun x => if x.isFor e.actuator then { x with reason := vd.reason } else x }

/-- R129: one round: every entry of the pass present when it begins is taken in arrival order. -/
def Traffic.round (v : View) (p : PassId) (tr : Traffic) : Traffic :=
  (tr.pool.filter (HeldEntry.isOf p)).foldl (Traffic.rejudge v) tr

/-- R132: the hold timer of the actuator's entry runs out. Without an entry nothing expires. -/
def Traffic.expireHeld (tb : Tables) (a : Actuator) (tr : Traffic) : Traffic :=
  match tr.pool.find? (HeldEntry.isFor a) with
  | some e => (tr.unpark a).answer tb e.requester .expired e.reason 0
  | none => tr

/-- R133: every entry of the pass is removed, in arrival order, each answered REFUSED with reason TRIP. -/
def Traffic.purge (tb : Tables) (p : PassId) (tr : Traffic) : Traffic :=
  (tr.pool.filter (HeldEntry.isOf p)).foldl
    (fun t e => t.answer tb e.requester .refused .trip 0)
    { tr with pool := tr.pool.filter fun e => !e.isOf p }

end Sys2Proof.Machine
end

