-- ==== Sys2Proof/Machine/Interlock.lean ====
section
/-! DEFINITION. The Interlock Unit's own acts (chapter 7): commands on arrival (R114, R119), the standing check
(R124), and what an interlock-relevant change brings (R121). -/

namespace Sys2Proof.Machine

/-! ### Commands on arrival -/

/-- R118: at arrival only, a HOLD on a row whose hold time is 0 becomes REFUSE with the same reason. -/
def arrivalVerdict (v : View) (tr : Traffic) (a : Actuator) (r : Nat) : Verdict :=
  let vd := judge v tr a r
  if vd.severity = .hold ∧ holdTime v a = 0 then { vd with severity := .refuse } else vd

/-- R119: the fate and the answer of a non-safe command at arrival. -/
def Traffic.arriveNonSafe (v : View) (a : Actuator) (t : Telegram) (tr : Traffic) : Traffic :=
  let vd := arrivalVerdict v tr a (requestedValue t.value)
  match vd.severity with
  | .refuse => tr.answer v.tables (requesterOf t) .refused vd.reason 0
  | .hold => tr.park v a t vd.reason
  | .clamp =>
    match tr.enlist v a vd.value (requesterOf t) (carriedOf t) with
    | (tr', some reason) => tr'.answer v.tables (requesterOf t) .refused reason 0
    | (tr', none) => tr'.answer v.tables (requesterOf t) .clamped vd.reason vd.value
  | .pass =>
    match tr.enlist v a vd.value (requesterOf t) (carriedOf t) with
    | (tr', some reason) => tr'.answer v.tables (requesterOf t) .refused reason 0
    | (tr', none) => tr'

/-- R114: a command for an actuator of a configured pass first supersedes its held entry; a safe one then goes to the
Action Queue, a non-safe one is judged. -/
def Traffic.arrive (v : View) (a : Actuator) (t : Telegram) (tr : Traffic) : Traffic :=
  let superseded := tr.supersede v.tables a
  match commandDirection t with
  | .safe => superseded.takeSafe v a (some (requesterOf t)) (carriedOf t)
  | .nonSafe => superseded.arriveNonSafe v a t

/-! ### The standing check -/

/-- R124: the actuator's confirmed state is non-safe. -/
def confirmedNonSafe (v : View) (a : Actuator) : Bool :=
  match a with
  | .gate p c => openAboveTolerance v p c
  | .signal p t => decide (((v.passes.get p).tips.get t).signal = .isOn)
  | .breaker p t => decide (((v.passes.get p).tips.get t).breaker = .working)

/-- R124: the actuator is engaged: confirmed non-safe, or with a non-safe entry ISSUED. -/
def isEngaged (v : View) (tr : Traffic) (a : Actuator) : Bool :=
  confirmedNonSafe v a || hasIssued tr a .nonSafe

/-- R124: why an engaged actuator is ordered safe: TABLE where the cell of its row is REFUSE, WET where only the
opening limit of a gate is 0. -/
def standingReason (v : View) (a : Actuator) : Option Reason :=
  if interlockCell v a = some .refuse then some .table
  else
    match a with
    | .gate p _ => if openingLimit v p = 0 then some .wet else none
    | .signal _ _ | .breaker _ _ => none

/-- R124: the actuators that the standing check of pass `p` forces safe, in its order, each with its reason. -/
def standingOrders (v : View) (p : PassId) (tr : Traffic) : List (Actuator × Reason) :=
  (standingOrder p).filterMap fun a =>
    if hasCommandPoint v.tables a && isEngaged v tr a then (standingReason v a).map (Prod.mk a) else none

/-- R123, R124: the standing check of a pass, run only in RUNNING and ALERT: the safe commands, and the FORCED raises, which
coalesce into one entry with the detail of the last. The arbiter finds the entry after the check's last raise, also on an idle
line (DEDUCED, log entry 8). -/
def Traffic.standingCheck (v : View) (p : PassId) (tr : Traffic) : Traffic :=
  if (v.passes.get p).mode.isLive then
    let forced := standingOrders v p tr
    match forced.getLast? with
    | some (_, r) =>
      (forced.foldl (fun t f => t.originate v f.1) tr).raiseMany v.tables (.pass p) .forced forced.length r.code
    | none => tr
  else tr

/-! ### Interlock-relevant changes -/

/-- R121: on a reported change the standing check is run if the change brings it (R123), then a round is taken. -/
def Traffic.change (v : View) (p : PassId) (standing : Bool) (tr : Traffic) : Traffic :=
  Traffic.round v p (if standing then tr.standingCheck v p else tr)

/-- An interlock-relevant change of a pass that does not bring the standing check is reported (R121, R123). -/
def State.reportChange (p : PassId) (s : State) : State := s.onTraffic fun v tr => tr.change v p false

/-- An interlock-relevant change of a pass that brings the standing check is reported (R121, R123). -/
def State.reportStandingChange (p : PassId) (s : State) : State := s.onTraffic fun v tr => tr.change v p true

/-- The part originates the safe command of an actuator, if it has a command point (R25, R144). -/
def State.originate (a : Actuator) (s : State) : State := s.onTraffic fun v tr => tr.originate v a

/-- A forced safe command: where the actuator has a command point the part originates its safe command and raises a
FORCED notice with the reason as detail (R88, R89, R101). -/
def State.force (a : Actuator) (r : Reason) (s : State) : State :=
  if hasCommandPoint s.tables a then (s.originate a).raise (.pass a.pass) .forced r.code else s

end Sys2Proof.Machine
end

