-- ==== Sys2Proof/Machine/Supervisor.lean ====
section
/-! DEFINITION. The Pass Supervisor (chapter 10): taking alert and trip causes, entry to TRIPPED, the changes of pass
state that requests bring; and the failure of an action, which hands it a cause (R143). -/

namespace Sys2Proof.Machine

/-- R152: the record at a raise. The values are those the cause carries: the stored H, Hc and Hs when it is handed
(R151). -/
def raisedAlarm (level : AlarmLevel) (c : Cause) (secondary : List Cause) (now : Word) (est : Estimate)
    (tel : Option Interrupted) : AlarmRecord :=
  { level := level, primary := some c, secondary := secondary, raisedAt := now, h := est.h, hc := est.hc, hs := est.hs,
    telegram := tel }

/-- R152, further cause: the code joins the secondary set unless it is the primary cause or already held. -/
def AlarmRecord.join (r : AlarmRecord) (c : Cause) : AlarmRecord :=
  if r.primary = some c then r else { r with secondary := insertCause c r.secondary }

/-- R152, level to NONE: every other field stays as it was. -/
def AlarmRecord.quieted (r : AlarmRecord) : AlarmRecord := { r with level := .quiet }

/-- R152, trip over an alert: the old primary cause joins the secondary set, whose other members are kept. -/
def secondaryAtTrip (x : Pass) : List Cause :=
  match x.mode, x.alarm.primary with
  | .alert, some old => insertCause old x.alarm.secondary
  | .alert, none => x.alarm.secondary
  | _, _ => []

/-- R153: an alert cause is taken by a pass. -/
def State.alertCause (p : PassId) (c : Cause) (tel : Option Interrupted) (s : State) : State :=
  let x := s.pass p
  match x.mode with
  | .running =>
    State.reportStandingChange p
      (State.raise (.pass p) .alert c.code
        (s.setPass p { x with mode := .alert, alarm := raisedAlarm .alert c [] s.time x.est tel }))
  | .alert | .tripped => s.setPass p { x with alarm := x.alarm.join c }
  | .isolated | .unconfigured => s

/-- R155: the entry to TRIPPED: record, safe state, purge, notice, report, in this order. -/
def State.enterTripped (p : PassId) (c : Cause) (tel : Option Interrupted) (s : State) : State :=
  let x := s.pass p
  let recorded := s.setPass p
    { x with mode := .tripped, alarm := raisedAlarm .trip c (secondaryAtTrip x) s.time x.est tel }
  let safed := recorded.onTraffic fun v tr => (safeStateOrder p).foldl (fun t a => t.originate v a) tr
  let purged := safed.onTraffic fun v tr => tr.purge v.tables p
  (purged.raise (.pass p) .trip c.code).reportChange p

/-- R154: a trip cause is taken by a pass. -/
def State.tripCause (p : PassId) (c : Cause) (tel : Option Interrupted) (s : State) : State :=
  let x := s.pass p
  match x.mode with
  | .running | .alert => s.enterTripped p c tel
  | .tripped => s.setPass p { x with alarm := x.alarm.join c }
  | .isolated | .unconfigured => s

/-! ### Failure of an action (R141 to R143) -/

/-- R143 steps 1 and 2: the failed entry is removed and its successors are cancelled. -/
def Traffic.dropFailed (tb : Tables) (a : Actuator) (tr : Traffic) : Traffic :=
  (tr.removeIssued a).cancelWaiting tb a .predecessor

/-- R143: an ISSUED entry fails. -/
def State.failAction (e : ActionEntry) (tel : Option Interrupted) (s : State) : State :=
  let a := e.actuator
  let dropped := s.onTraffic fun v tr => tr.dropFailed v.tables a
  let noticed := dropped.raise (.pass a.pass) .actionFail (10 * operationCode a e.direction + a.object.val)
  match e.direction with
  | .nonSafe => (noticed.originate a).alertCause a.pass .actionFail tel
  | .safe => noticed.tripCause a.pass .safeFail tel

/-- R139, R142: a report reaches the Action Queue as a confirmation candidate. A FAULT against an ISSUED breaker start
fails it at once; any other candidate is tested for confirmation. -/
def State.candidate (a : Actuator) (t : Telegram) (s : State) : State :=
  match a, issuedEntry s.traffic a with
  | .breaker p b, some e =>
    if ((s.pass p).tips.get b).breaker = .fault ∧ e.direction = .nonSafe then
      s.failAction e (some (interruptedOf t))
    else s.onTraffic fun v tr => tr.confirm v a
  | _, _ => s.onTraffic fun v tr => tr.confirm v a

/-! ### Changes of pass state that requests bring -/

/-- R157 steps 1 and 2: an acknowledged pass goes to RUNNING, and the change is reported with the standing check. -/
def State.acknowledgePass (p : PassId) (s : State) : State :=
  let x := s.pass p
  State.reportStandingChange p (s.setPass p { x with mode := .running, alarm := x.alarm.quieted })

/-- R160: an accepted isolation: purge, level NONE, state ISOLATED, mark set, change reported. -/
def State.isolatePass (p : PassId) (s : State) : State :=
  let purged := s.onTraffic fun v tr => tr.purge v.tables p
  let x := purged.pass p
  let moved := purged.setPass p { x with mode := .isolated, alarm := x.alarm.quieted }
  State.reportChange p { moved with tables := { moved.tables with marks := moved.tables.marks.set p true } }

/-- R160: a restored pass goes to RUNNING and its mark is cleared; the change is reported without standing check. -/
def State.restorePass (p : PassId) (s : State) : State :=
  let moved := s.setPass p { s.pass p with mode := .running }
  State.reportChange p { moved with tables := { moved.tables with marks := moved.tables.marks.set p false } }

end Sys2Proof.Machine
end

