-- ==== Sys2Proof/Machine/Estimator.lean ====
section
/-! DEFINITION. The Level Estimator (chapter 4): samples, the stages of an evaluation, bands, and what an evaluation
hands on. -/

namespace Sys2Proof.Machine

/-- R58: the rounded quotient, and whether the rounding was inexact. -/
def roundDiv (m : Rounding) (a b : Nat) : Nat × Bool :=
  let q := a / b
  let r := a % b
  (match m with
    | .down => q
    | .up => if r = 0 then q else q + 1
    | .nearest =>
      if 2 * r < b then q
      else if b < 2 * r then q + 1
      else if q % 2 = 0 then q else q + 1,
   decide (r ≠ 0))

/-! ### The stages -/

/-- Stage 0 (R63): the sample is present, fresh and of quality Good or Uncertain. -/
def usableSample (e : Estimate) : Option Sample :=
  match e.sample with
  | some sm => if sm.fresh = true ∧ sm.quality ≠ .bad then some sm else none
  | none => none

/-- Stage 0 (R63): a current sample that is fresh and Bad finds V. -/
def badSample (e : Estimate) : Bool :=
  match e.sample with
  | some sm => decide (sm.fresh = true ∧ sm.quality = .bad)
  | none => false

/-- Stage 1 (R64): the volume of a charge, rounded. -/
def chargeVolume (pr : PassParams) (c : Charge) : Nat × Bool :=
  roundDiv pr.rounding (100 * c.remaining) (byWetness pr.density c.wetness)

/-- Stage 1 (R64): the column volume, and whether any rounding was inexact. -/
def columnVolume (pr : PassParams) : List Charge → Nat × Bool
  | [] => (0, false)
  | c :: cs =>
    let (v, ix) := chargeVolume pr c
    let (vs, ixs) := columnVolume pr cs
    (v + vs, ix || ixs)

/-- A height formed by a stage: its value, whether a rounding was inexact, and the condition its bound found. -/
structure Height where
  value : Nat
  inexact : Bool
  bounded : Bool
deriving DecidableEq, Repr

/-- Stage 2 (R64): the column height, saturated at L; saturation finds O. -/
def columnHeight (pr : PassParams) (charges : List Charge) : Height :=
  let (v, ix) := columnVolume pr charges
  let (h, ix') := roundDiv pr.rounding (100 * v) pr.area
  { value := min h pr.len, inexact := ix || ix', bounded := decide (pr.len < h) }

/-- Stage 3 (R65): the sensor height of a usable sample, with the condition found: O above the collar, U below the
bottom; the sample is clamped when one is found. -/
inductive SensorBound where
  | unclamped | overflow | underflow
deriving DecidableEq, Repr

def sensorHeight (pr : PassParams) (d : Nat) : Nat × SensorBound :=
  if d < pr.sensorOffset then (pr.len, .overflow)
  else if d ≤ pr.len + pr.sensorOffset then (pr.len + pr.sensorOffset - d, .unclamped)
  else (0, .underflow)

/-- Stage 4 (R66): the column weight. -/
def columnWeight (pr : PassParams) (surveyed : Bool) : Nat := if surveyed then pr.columnWeight else 0

/-- Stage 4 (R66): the sensor weight: whole for a Good unclamped sample, else half, the half discarded. -/
def sensorWeight (pr : PassParams) (q : Quality) (b : SensorBound) : Nat :=
  if q = .good ∧ b = .unclamped then pr.sensorWeight else pr.sensorWeight / 2

/-- Stage 5 (R67): the fused estimate and whether its rounding was inexact; none where the weights sum to 0. -/
def fusedHeight (m : Rounding) (wc hc ws hs : Nat) : Option (Nat × Bool) :=
  if wc + ws = 0 then none else some (roundDiv m (wc * hc + ws * hs) (wc + ws))

/-- Stage 6 (R68): the comparison of the two heights. -/
def divergence (limit hc hs : Nat) : Option Divergence :=
  if hc + limit < hs then some .high else if hs + limit < hc then some .low else none

/-- What an evaluation finds: the stage heights and its cause set. -/
structure Findings where
  hc : Nat
  hs : Option Nat
  h : Option Nat
  causes : CauseSet
deriving DecidableEq, Repr

/-- The stages 0 to 7 of an evaluation (R62 to R70). `o` and `u` are the conditions that a column change handed over
(R44). -/
def findings (pr : PassParams) (x : Pass) (o u : Bool) : Findings :=
  let col := columnHeight pr x.column.charges
  let wc := columnWeight pr x.column.surveyed
  match usableSample x.est with
  | none =>
    let fused := fusedHeight pr.rounding wc col.value 0 0
    { hc := col.value
      hs := none
      h := fused.map Prod.fst
      causes :=
        { i := col.inexact || (fused.map Prod.snd).getD false
          o := o || col.bounded
          u := u
          v := badSample x.est || fused.isNone
          g := none } }
  | some sm =>
    let (hs, bound) := sensorHeight pr sm.distance
    let fused := fusedHeight pr.rounding wc col.value (sensorWeight pr sm.quality bound) hs
    { hc := col.value
      hs := some hs
      h := fused.map Prod.fst
      causes :=
        { i := sm.inexact || col.inexact || (fused.map Prod.snd).getD false
          o := o || col.bounded || decide (bound = .overflow)
          u := u || decide (bound = .underflow)
          v := fused.isNone
          g := if x.column.surveyed = true ∧ sm.quality = .good ∧ bound = .unclamped
               then divergence pr.divergenceLimit col.value hs else none } }

/-! ### Bands (R74, R75) -/

/-- R74: the raw band of a height. -/
def rawBand (pr : PassParams) (h : Nat) : Band :=
  if h = 0 then .empty
  else if h = pr.len then .full
  else if h ≤ pr.cushion then .low
  else if pr.len ≤ h + pr.highFill then .high
  else .normal

/-- The lower of two bands (R74: ordered EMPTY, LOW, NORMAL, HIGH, FULL). -/
def Band.lower (a b : Band) : Band := if a.code ≤ b.code then a else b

/-- R75: the band after an update from the stored H, with the band held before. -/
def updatedBand (pr : PassParams) (h : Nat) (current : Band) : Band :=
  if h = 0 then .empty
  else if h = pr.len then .full
  else if current.code ≤ (rawBand pr h).code then rawBand pr h
  else current.lower (rawBand pr (min (h + pr.hysteresis) (pr.len - 1)))

/-! ### The outcome of an evaluation (R70 to R76) -/

/-- R76: a band that differs from the one before raises a BAND notice and is then reported, with the standing check. The
order of the two is that of section 7.8 (DEDUCED, log entry 14). -/
def State.handBand (p : PassId) (before : Band) (s : State) : State :=
  let now := (s.pass p).est.band
  if now = before then s
  else (s.raise (.pass p) .band now.code).reportStandingChange p

/-- R70: the cause set is replaced and the sticky flags of its conditions are set. -/
def Estimate.record (e : Estimate) (c : CauseSet) : Estimate := { e with causes := c, sticky := e.sticky.mark c }

/-- R72, R75: the figures of the evaluation are stored and the band brought up to date. -/
def Estimate.store (pr : PassParams) (e : Estimate) (f : Findings) : Estimate :=
  let h := f.h.getD e.h
  { e with hc := f.hc, hs := f.hs.getD e.hs, h := h, band := updatedBand pr h e.band }

/-- R62 to R76: one evaluation of a pass. `o` and `u` come with a column change (R44), `tel` is the triggering report.
An UNCONFIGURED pass has none. -/
def State.evaluate (p : PassId) (o u : Bool) (tel : Option Interrupted) (s : State) : State :=
  let x := s.pass p
  let pr := s.params p
  if x.mode = .unconfigured then s
  else
    let f := findings pr x o u
    let recorded := x.est.record f.causes
    match enabledCauses pr f.causes with
    | [] => (s.setPass p { x with est := recorded.store pr f }).handBand p x.est.band
    | c :: cs => (c :: cs).foldl (fun st cause => st.alertCause p cause tel) (s.setPass p { x with est := recorded })

/-! ### Samples (R60, R61) -/

/-- R60: the sample a LEVEL report makes current. -/
def sampleOf (pr : PassParams) (e : PointEntry) (t : Telegram) : Sample :=
  match reportQuality t with
  | .bad => { distance := 0, quality := .bad, inexact := false, fresh := true }
  | q =>
    let (d, ix) := roundDiv pr.rounding (t.value.toInt.toNat * e.scaleNum.getD 1) (e.scaleDen.getD 1)
    { distance := d, quality := q, inexact := ix, fresh := true }

/-- R60: a LEVEL report makes its sample current, starts the sample life timer and brings one evaluation. -/
def State.takeSample (p : PassId) (e : PointEntry) (t : Telegram) (s : State) : State :=
  let x := s.pass p
  let pr := s.params p
  State.evaluate p false false (some (interruptedOf t))
    (s.setPass p { x with est := { x.est with sample := some (sampleOf pr e t), life := some pr.staleTime } })

/-- R61: the sample life timer runs out: the sample becomes stale, the timer stops, and one evaluation is made.
A stopped timer does not run out (DESIGN CHOICE, log entry 4). -/
def State.staleSample (p : PassId) (s : State) : State :=
  let x := s.pass p
  match x.est.life with
  | none => s
  | some _ =>
    State.evaluate p false false none
      (s.setPass p
        { x with est := { x.est with sample := x.est.sample.map fun sm => { sm with fresh := false }, life := none } })

/-- R77: an accepted write of L sets H, Hc and Hs to 0 and the band to EMPTY, and hands on the band change. -/
def State.resetHeights (p : PassId) (s : State) : State :=
  let x := s.pass p
  (s.setPass p { x with est := { x.est with h := 0, hc := 0, hs := 0, band := .empty } }).handBand p x.est.band

end Sys2Proof.Machine
end

