-- ==== Sys2Proof/Machine/ColumnStore.lean ====
section
/-! DEFINITION. The Column Store (chapter 3): placing, drawing, merging, accumulators, totals, surveys and clearing,
as operations on one pass's column record. `Bool` results say whether excess went to Spill (the Overflow condition of
R44). -/

namespace Sys2Proof.Machine

/-- R49: a total increased, staying at 4,294,967,295 once there. -/
def addTotal (a b : Nat) : Nat := min (a + b) Config.totalCeiling

/-- The part of a tonnage above 60000 (R38, R42). -/
def excessOf (q : Nat) : Nat := q - Config.tonnageCeiling

/-- R32: the merge record after one more merge at time `now`. -/
def mergedRecord (now : Word) (m : Option MergeRecord) : MergeRecord :=
  match m with
  | none => { count := 1, latest := now }
  | some r => { count := min (r.count + 1) Config.countCeiling, latest := now }

/-- R38, R42: tonnage `q` with its wetness and oversize mark is merged into a charge. -/
def Charge.absorb (now : Word) (q : Nat) (w : Wetness) (ovs : Bool) (c : Charge) : Charge :=
  { c with
    remaining := min (c.remaining + q) Config.tonnageCeiling
    placed := min (c.placed + q) Config.tonnageCeiling
    wetness := c.wetness.wetter w
    oversize := c.oversize || ovs
    merge := some (mergedRecord now c.merge) }

/-- R38: tonnage merged into the top charge, with the excess. An empty list has no top and takes nothing. -/
def mergeTop (now : Word) (q : Nat) (w : Wetness) (ovs : Bool) : List Charge → List Charge × Nat
  | [] => ([], q)
  | [c] => ([c.absorb now q w ovs], excessOf (c.remaining + q))
  | c :: d :: cs =>
    let (rest, e) := mergeTop now q w ovs (d :: cs)
    (c :: rest, e)

/-- The Spill total takes an excess (R49). -/
def Column.spilled (c : Column) (e : Nat) : Column := { c with spill := addTotal c.spill e }

/-- R37: a new charge at the top, with the next charge number; the counter advances, from 65535 to 0 (R33). -/
def Column.append (now : Word) (origin : Origin) (w : Wetness) (ovs : Bool) (q : Nat) (c : Column) : Column :=
  { c with
    charges := c.charges ++
      [{ number := c.counter, origin := origin, placed := q, remaining := q, wetness := w, oversize := ovs,
         placedAt := now, merge := none }]
    counter := c.counter + 1 }

/-- R37, R38: a tonnage is placed: appended, or merged into the top charge of a column of 48. -/
def Column.place (now : Word) (origin : Origin) (w : Wetness) (ovs : Bool) (q : Nat) (c : Column) : Column × Bool :=
  if c.charges.length < Config.columnCapacity then (c.append now origin w ovs q, false)
  else
    let (charges, e) := mergeTop now q w ovs c.charges
    (Column.spilled { c with charges := charges } e, decide (0 < e))

/-- R35: oversize is added to the accumulator of a tip point, its excess to Spill. -/
def Column.accumulate (t : TipId) (q : Nat) (w : Wetness) (c : Column) : Column × Bool :=
  let a := c.accums.get t
  let fits := min q (Config.tonnageCeiling - a.tonnage)
  let e := q - fits
  (Column.spilled
    { c with accums := c.accums.set t { tonnage := a.tonnage + fits, wetness := a.wetness.wetter w } } e,
   decide (0 < e))

/-- R36 step 1: the oversize tonnage. -/
def oversizeOf (m : Rounding) (p s : Nat) : Nat := (roundDiv m (p * s) 100).1

/-- R36: a tip of payload `p`, wetness `w`, oversize share `s` at tip point `t`. -/
def Column.tip (m : Rounding) (now : Word) (t : TipId) (p : Nat) (w : Wetness) (s : Nat) (c : Column) :
    Column × Bool :=
  let o := oversizeOf m p s
  let f := p - o
  let counted := { c with tipped := addTotal c.tipped p }
  let (placed, e1) := if f = 0 then (counted, false) else counted.place now (.tip t) w false f
  let (done, e2) := if o = 0 then (placed, false) else placed.accumulate t o w
  (done, e1 || e2)

/-- R39: the accumulator's tonnage is placed as a GRIZZLY charge and the accumulator emptied. -/
def Column.clearGrizzly (now : Word) (t : TipId) (c : Column) : Column × Bool :=
  let a := c.accums.get t
  let (placed, e) := c.place now (.grizzly t) a.wetness true a.tonnage
  ({ placed with accums := placed.accums.set t emptyAccumulator }, e)

/-- R40: a tonnage is taken from the head upward; what the column cannot give is the shortfall. -/
def takeFrom : Nat → List Charge → List Charge × Nat
  | d, [] => ([], d)
  | d, c :: cs => if d < c.remaining then ({ c with remaining := c.remaining - d } :: cs, 0) else takeFrom (d - c.remaining) cs

/-- R41, R42: the residue rule: while the head is below R and a charge stands above it, the head is merged upward. -/
def residueRule (r : Nat) (now : Word) (head : Charge) : List Charge → List Charge × Nat
  | [] => ([head], 0)
  | next :: above =>
    if head.remaining < r then
      let (charges, e) := residueRule r now (next.absorb now head.remaining head.wetness head.oversize) above
      (charges, excessOf (next.remaining + head.remaining) + e)
    else (head :: next :: above, 0)

/-- R40 to R42: a draw of `d`: the column, whether excess went to Spill, whether tonnage went to Shortfall. -/
def Column.draw (r : Nat) (now : Word) (d : Nat) (c : Column) : Column × Bool × Bool :=
  let counted := { c with drawn := addTotal c.drawn d }
  match takeFrom d c.charges with
  | ([], u) => ({ counted with charges := [], shortfall := addTotal c.shortfall u }, false, decide (0 < u))
  | (head :: above, _) =>
    let (charges, e) := residueRule r now head above
    (Column.spilled { counted with charges := charges } e, decide (0 < e), false)

/-- R43: a moisture report raises the head charge's wetness. -/
def Column.moisten (w : Wetness) (c : Column) : Column :=
  match c.charges with
  | [] => c
  | h :: rest => { c with charges := { h with wetness := h.wetness.wetter w } :: rest }

/-- R47: a survey replaces the column by one SURVEY charge, sets the totals anew and marks the column surveyed. -/
def Column.survey (now : Word) (tonnage : Nat) (w : Wetness) (c : Column) : Column :=
  let loaded := Column.append now .survey w false tonnage { c with charges := [] }
  { loaded with
    tipped := 0, drawn := 0, shortfall := 0, spill := 0, base := tonnage + accumTotal c, surveyed := true }

/-! ### What the column hands on (R44, R45) -/

/-- R87: the standing of a grizzly limit against an accumulator tonnage. -/
def standingOf (limit tonnage : Nat) : Standing := if 0 < limit ∧ limit ≤ tonnage then .full else .below

/-- R88: the signal of the tip point is ON, or has an ON entry, WAITING or ISSUED. -/
def permitShown (s : State) (p : PassId) (t : TipId) : Bool :=
  decide (((s.pass p).tips.get t).signal = .isOn) || hasNonSafe s.traffic (.signal p t)

/-- R87, R88: the tip-point record sets its standing anew. A crossing to FULL with a permit shown forces the signal
off; a crossing either way is reported. -/
def State.setStanding (p : PassId) (t : TipId) (s : State) : State :=
  let r := (s.pass p).tips.get t
  let now := standingOf ((s.tables.grizzly.get p).get t) ((s.pass p).column.accums.get t).tonnage
  if now = r.standing then s
  else
    let crossed := s.setTip p t { r with standing := now }
    let forced := if now = .full ∧ permitShown crossed p t = true then crossed.force (.signal p t) .grizzly else crossed
    forced.reportChange p

/-- R45: the accumulator of a tip point hands its tonnage to the record if it changed. -/
def State.handAccumulator (p : PassId) (before : Column) (s : State) (t : TipId) : State :=
  if ((s.pass p).column.accums.get t).tonnage = (before.accums.get t).tonnage then s else s.setStanding p t

/-- R44, R45: a column change of a pass is completed: one evaluation, then the head wetness change, then the
accumulators that changed, in tip-point order (DESIGN CHOICE, log entry 13). `before` is the column before the change. -/
def State.completeColumn (p : PassId) (before : Column) (o u : Bool) (tel : Option Interrupted) (s : State) : State :=
  let evaluated := s.evaluate p o u tel
  let told :=
    if headWetness (s.pass p).column = headWetness before then evaluated else evaluated.reportStandingChange p
  allTips.foldl (State.handAccumulator p before) told

/-- A column change of a pass to column `c`, completed as R44 and R45 give. -/
def State.changeColumn (p : PassId) (c : Column) (o u : Bool) (tel : Option Interrupted) (s : State) : State :=
  (s.setPass p { s.pass p with column := c }).completeColumn p (s.pass p).column o u tel

end Sys2Proof.Machine
end

