-- ==== Sys2Proof/Machine/Reports.lean ====
section
/-! DEFINITION. What each report role does when its report is applied (R28): the Column Store's reports, the
tip-point records (chapter 5), the chute records and the notice slot (chapter 6). A report whose value is ignored
(R29) changes nothing here. Relaying stands in Receive.lean. -/

namespace Sys2Proof.Machine

/-- R60: a LEVEL report. -/
def levelReport (h : Hit) (t : Telegram) (s : State) : State := s.takeSample h.pass h.entry t

/-- R36: a TIP report. -/
def tipReport (h : Hit) (t : Telegram) (s : State) : State :=
  match reportPayload t with
  | none => s
  | some p =>
    let (c, o) := (s.pass h.pass).column.tip (s.params h.pass).rounding s.time h.object p (reportWetness t) (reportShare t)
    s.changeColumn h.pass c o false (some (interruptedOf t))

/-- R40, R102: a DRAW report, taken by the Column Store alone. -/
def drawReport (h : Hit) (t : Telegram) (s : State) : State :=
  match reportPayload t with
  | none => s
  | some d =>
    let (c, o, u) := (s.pass h.pass).column.draw (s.params h.pass).residue s.time d
    s.changeColumn h.pass c o u (some (interruptedOf t))

/-- R39, R90: a GRIZZLY-CLEAR report. An empty accumulator changes nothing. -/
def grizzlyClearReport (h : Hit) (t : Telegram) (s : State) : State :=
  if ((s.pass h.pass).column.accums.get h.object).tonnage = 0 then s
  else
    let (c, o) := (s.pass h.pass).column.clearGrizzly s.time h.object
    s.changeColumn h.pass c o false (some (interruptedOf t))

/-- R43: a moisture report at the Column Store. Only a raised head wetness is a column change. -/
def moistureAtColumn (p : PassId) (w : Wetness) (t : Telegram) (s : State) : State :=
  let c := (s.pass p).column.moisten w
  if headWetness c = headWetness (s.pass p).column then s else s.changeColumn p c false false (some (interruptedOf t))

/-- R103: a moisture report at the chute record: the last moisture class, then the mud-rush test. -/
def moistureAtChute (p : PassId) (c : ChuteId) (w : Wetness) (t : Telegram) (s : State) : State :=
  let noted := s.setChute p c { (s.pass p).chutes.get c with moisture := some w }
  if w = .slurry ∧ openAboveTolerance noted.view p c = true then noted.tripCause p .mudRush (some (interruptedOf t))
  else noted

/-- R43, R103: a CHUTE-MOISTURE report is taken by the Column Store and then by the chute record. -/
def chuteMoistureReport (h : Hit) (t : Telegram) (s : State) : State :=
  moistureAtChute h.pass (chuteOf h.object) (reportWetness t) t (moistureAtColumn h.pass (reportWetness t) t s)

/-! ### Gates and wagons (chapter 6) -/

/-- R99: the report shows an uncommanded movement. `before` is the gate confirmed state before the report. -/
def movedUncommanded (s : State) (p : PassId) (c : ChuteId) (before : Option Nat) (opening : Nat) : Bool :=
  let hist := (s.traffic.history.get p).get c
  decide (gateTolerance s.tables p c < opening)
    && hasCommandPoint s.tables (.gate p c)
    && !hasIssued s.traffic (.gate p c) .nonSafe
    && decide (hist.reference = .closed
        ∨ hist.reference = .unset ∧ before = none ∧ hist.lastIssued = .closing)

/-- R97: a GATE-POSITION report: set, movement test, mud-rush test (R104), change, confirmation candidate. -/
def gatePositionReport (h : Hit) (t : Telegram) (s : State) : State :=
  let p := h.pass
  let c := chuteOf h.object
  let before := ((s.pass p).chutes.get c).gate
  let opening := reportOpening t
  let noted := s.setChute p c { (s.pass p).chutes.get c with gate := some opening }
  let moved :=
    if movedUncommanded noted p c before opening then noted.tripCause p .gateMoved (some (interruptedOf t)) else noted
  let rushed :=
    if gateTolerance s.tables p c < opening ∧ ((s.pass p).chutes.get c).moisture = some .slurry then
      moved.tripCause p .mudRush (some (interruptedOf t))
    else moved
  let changed := if before = some opening then rushed else rushed.reportChange p
  changed.candidate (.gate p c) t

/-- R101: the wagon-loss test: the gate is open above tolerance or has an ISSUED open. -/
def wagonLost (s : State) (p : PassId) (c : ChuteId) : Bool :=
  openAboveTolerance s.view p c || hasIssued s.traffic (.gate p c) .nonSafe

/-- R100, R101: a WAGON report: set, wagon-loss test on ABSENT, change. -/
def wagonReport (h : Hit) (t : Telegram) (s : State) : State :=
  match reportWagon t with
  | none => s
  | some w =>
    let p := h.pass
    let c := chuteOf h.object
    let before := ((s.pass p).chutes.get c).wagon
    let noted := s.setChute p c { (s.pass p).chutes.get c with wagon := w }
    let forced :=
      if w = .absent ∧ wagonLost noted p c = true then noted.force (.gate p c) .wagon else noted
    if w = before then forced else forced.reportChange p

/-! ### Signals and breakers (chapter 5) -/

/-- R80, R82, R84, R89: a SIGNAL-STATE report: set, checks of an ON report, change, confirmation candidate. -/
def signalStateReport (h : Hit) (t : Telegram) (s : State) : State :=
  match reportSignal t with
  | none => s
  | some v =>
    let p := h.pass
    let n := h.object
    let r := (s.pass p).tips.get n
    let noted := s.setTip p n { r with signal := v }
    let tripped :=
      if v = .isOn ∧ r.breaker = .working then noted.tripCause p .breakerUnderPermit (some (interruptedOf t)) else noted
    let forced := if v = .isOn ∧ r.standing = .full then tripped.force (.signal p n) .grizzly else tripped
    let changed := if v = r.signal then forced else forced.reportChange p
    changed.candidate (.signal p n) t

/-- R81 to R83: a BREAKER-STATE report: set, check of a WORKING report, change, confirmation candidate. -/
def breakerStateReport (h : Hit) (t : Telegram) (s : State) : State :=
  match reportBreaker t with
  | none => s
  | some v =>
    let p := h.pass
    let n := h.object
    let r := (s.pass p).tips.get n
    let noted := s.setTip p n { r with breaker := v }
    let tripped :=
      if v = .working ∧ (r.signal = .isOn ∨ hasIssued noted.traffic (.signal p n) .nonSafe = true) then
        noted.tripCause p .breakerUnderPermit (some (interruptedOf t))
      else noted
    let changed := if v = r.breaker then tripped else tripped.reportChange p
    changed.candidate (.breaker p n) t

/-! ### The Pass Notice slot (R106 to R108) -/

/-- R108: events of a SLOT notice: 1 POSTED, 2 TAKEN, 3 IGNORED, 4 CLEARED. -/
def slotDetail (event : Nat) (k : SlotKind) : Nat := 10 * event + k.code

/-- R106: a NOTICE-POST report fills an empty slot, or is ignored by a full one. -/
def noticePostReport (h : Hit) (t : Telegram) (s : State) : State :=
  match reportKind t with
  | none => s
  | some k =>
    let x := s.pass h.pass
    match x.slot with
    | some _ => s.raise (.pass h.pass) .slot (slotDetail 3 k)
    | none =>
      State.reportChange h.pass
        (State.raise (.pass h.pass) .slot (slotDetail 1 k)
          (s.setPass h.pass { x with slot := some { kind := k, station := t.src, posted := s.time } }))

/-- R107, R110: a full slot is emptied, a SLOT notice raised and the change reported. An empty slot stays. -/
def State.emptySlot (p : PassId) (event : Nat) (s : State) : State :=
  let x := s.pass p
  match x.slot with
  | none => s
  | some n =>
    State.reportChange p (State.raise (.pass p) .slot (slotDetail event n.kind) (s.setPass p { x with slot := none }))

/-- R107: a NOTICE-TAKEN report. -/
def noticeTakenReport (h : Hit) (_t : Telegram) (s : State) : State := s.emptySlot h.pass 2

end Sys2Proof.Machine
end

