-- ==== Sys2Proof/Machine/StartUp.lean ====
section
/-! DEFINITION. Start-up after power-on and device reset (R176), and the performance of a pending DEVICE-RESET
(R17, R175). -/

namespace Sys2Proof.Machine

/-- R176 steps 1 to 3: the stored tables are kept, every volatile item takes its value after power-on and device
reset, and each pass takes its state and alarm record from its Configured setting and isolation mark (R162). The
queue of waiting commands and the count of drawn free values are the model's own and are kept. -/
def State.restarted (cause : ResetCause) (s : State) : State :=
  { tables := s.tables
    passes :=
      { at0 := restartedPass (s.tables.params.get 0).configured (s.tables.marks.get 0)
        at1 := restartedPass (s.tables.params.get 1).configured (s.tables.marks.get 1)
        at2 := restartedPass (s.tables.params.get 2).configured (s.tables.marks.get 2)
        at3 := restartedPass (s.tables.params.get 3).configured (s.tables.marks.get 3) }
    traffic := clearedTraffic
    silence := startedSilence s.tables.device.silenceTime
    time := 0
    pendingIsolation := none
    bar := false
    resetCause := cause
    resetPending := false
    draws := s.draws
    pending := s.pending }

/-- R176 step 4: the safe commands of a configured pass are originated, signals, gates, breakers. -/
def State.startSafe (s : State) (p : PassId) : State :=
  if (s.pass p).mode = .unconfigured then s
  else s.onTraffic fun v tr => (safeStateOrder p).foldl (fun t a => t.originate v a) tr

/-- R176 step 6: a pass that came back in ALERT raises ALERT with detail 13, and its entry to ALERT is reported. -/
def State.startAlert (s : State) (p : PassId) : State :=
  if (s.pass p).mode = .alert then
    (s.raise (.pass p) .alert Cause.restart.code).reportStandingChange p
  else s

/-- R176: start-up, taken whole. -/
def State.startUp (cause : ResetCause) (s : State) : State :=
  let safed := allPasses.foldl State.startSafe (s.restarted cause)
  let noticed := safed.raise .device .restart cause.code
  allPasses.foldl State.startAlert noticed

/-- R17, R175: the DONE reply of the DEVICE-RESET is still queued or in transmission on the Control Port. -/
def doneOutstanding (s : State) : Bool :=
  s.traffic.ctl.port.queue.any Queued.endsInReset
    || (match s.traffic.ctl.port.sending with
        | some x => x.endsInReset
        | none => false)

/-- R175: should the DONE reply have been removed from the Control Port queue by R11, the reset is performed. What the
event did to volatile state after the removal is lost with the reset, so it is performed at the event's end (DEDUCED, log entry
10). -/
def State.settleReset (s : State) : State :=
  if s.resetPending && !doneOutstanding s then s.startUp .commanded else s

/-- R13, R17: the Control Port's line free event. The event that ends the DONE reply's transmission performs the
reset. On an idle line no transmission ends (DESIGN CHOICE, log entry 4). -/
def State.controlLineFree (s : State) : State :=
  match s.traffic.ctl.port.sending with
  | none => s
  | some x =>
    if x.endsInReset then s.startUp .commanded
    else
      s.onTraffic fun v tr =>
        { tr with
          ctl := ControlSide.arbitrate v.tables.device { tr.ctl with port := { tr.ctl.port with sending := none } } }

/-- R13: the Field Port's line free event. -/
def State.fieldLineFree (s : State) : State :=
  match s.traffic.field.sending with
  | none => s
  | some _ => s.onTraffic fun _ tr => Traffic.fieldArbitrate { tr with field := { tr.field with sending := none } }

end Sys2Proof.Machine
end

