-- ==== Sys2Proof/Machine/Catalogue.lean ====
section
/-! DEFINITION. What can be read: the status items of R167, and the stored fields of R171 in their coding. -/

namespace Sys2Proof.Machine

/-! ### Status items (R167) -/

/-- −1 stands for UNKNOWN, NONE or absent (R167). -/
def orMinusOne (o : Option Int) : Int := o.getD (-1)

def sampleItem (e : Estimate) (index : Nat) : Option Int :=
  match index with
  | 0 => some (orMinusOne (e.sample.map fun x => (x.distance : Int)))
  | 1 => some (orMinusOne (e.sample.map fun x =>
      match x.quality with
      | .good => 0 | .uncertain => 1 | .bad => 2))
  | 2 => some (orMinusOne (e.sample.map fun x => if x.fresh then 0 else 1))
  | 3 => some (orMinusOne (e.sample.map fun x => if x.inexact then 1 else 0))
  | _ => none

def alarmItem (r : AlarmRecord) (index : Nat) : Option Int :=
  match index with
  | 0 => some (match r.level with
      | .quiet => 0 | .alert => 1 | .trip => 2)
  | 1 => some (match r.primary with
      | none => 0
      | some c => c.code)
  | 2 => some (secondaryCode r.secondary)
  | 3 => some r.raisedAt.toNat
  | 4 => some r.h
  | 5 => some r.hc
  | 6 => some r.hs
  | 7 => some (if r.telegram.isSome then 1 else 0)
  | 8 => some (orMinusOne (r.telegram.map fun x => (x.src.toNat : Int)))
  | 9 => some (orMinusOne (r.telegram.map fun x => (x.kind.toNat : Int)))
  | 10 => some (orMinusOne (r.telegram.map fun x => (x.point.toNat : Int)))
  | 11 => some (orMinusOne (r.telegram.map fun x => (x.tag.toNat : Int)))
  | 12 => some (orMinusOne (r.telegram.map fun x => x.value.toInt))
  | _ => none

def originCode : Origin → Nat
  | .tip t => t.val | .grizzly t => 10 + t.val | .survey => 20

/-- R167 item 14: field `k % 10` of charge `k / 10`; a charge at or above the column count is out of range. -/
def chargeItem (c : Column) (index : Nat) : Option Int :=
  match c.charges[index / 10]? with
  | none => none
  | some x =>
    match index % 10 with
    | 0 => some x.number.toNat
    | 1 => some (originCode x.origin)
    | 2 => some x.placed
    | 3 => some x.remaining
    | 4 => some x.wetness.code
    | 5 => some (if x.oversize then 1 else 0)
    | 6 => some x.placedAt.toNat
    | 7 => some (match x.merge with
        | none => 0
        | some m => m.count)
    | 8 => some (orMinusOne (x.merge.map fun m => (m.latest.toNat : Int)))
    | _ => none

def slotItem (x : Option SlotNotice) (index : Nat) : Option Int :=
  match index with
  | 0 => some (match x with
      | none => 0
      | some n => n.kind.code)
  | 1 => some (orMinusOne (x.map fun n => (n.station.toNat : Int)))
  | 2 => some (orMinusOne (x.map fun n => (n.posted.toNat : Int)))
  | _ => none

def chuteItem (x : Pass) (code index : Nat) : Option Int :=
  (indexBelow 2 index).bind fun c =>
    let r := x.chutes.get c
    match code with
    | 24 => some (orMinusOne (r.gate.map fun g => (g : Int)))
    | 25 => some (match r.wagon with
        | .unknown => -1 | .present => 1 | .absent => 0)
    | 26 => some (orMinusOne (r.moisture.map fun w => (w.code : Int)))
    | _ => none

def tipItem (x : Pass) (code index : Nat) : Option Int :=
  (indexBelow 3 index).bind fun t =>
    let r := x.tips.get t
    let a := x.column.accums.get t
    match code with
    | 15 => some a.tonnage
    | 16 => some a.wetness.code
    | 17 => some (match r.standing with
        | .below => 0 | .full => 1)
    | 27 => some (match r.signal with
        | .unknown => -1 | .isOn => 1 | .isOff => 0)
    | 28 => some (match r.breaker with
        | .unknown => -1 | .parked => 0 | .working => 1 | .fault => 2)
    | _ => none

/-- R167: the per-pass items. -/
def passItem (x : Pass) (code index : Nat) : Option Int :=
  match code with
  | 1 => some (conditionCode x)
  | 2 => some x.est.band.code
  | 3 => some x.est.h
  | 4 => some x.est.hc
  | 5 => some x.est.hs
  | 6 => some x.est.causes.code
  | 7 => some x.est.sticky.code
  | 8 => sampleItem x.est index
  | 9 => some (if x.column.surveyed then 1 else 0)
  | 10 => alarmItem x.alarm index
  | 11 => some x.column.charges.length
  | 12 => some (columnTotal x.column)
  | 13 => some (match x.column.charges with
      | [] => 0
      | c :: _ => c.remaining)
  | 14 => chargeItem x.column index
  | 18 => some x.column.base
  | 19 => some x.column.tipped
  | 20 => some x.column.drawn
  | 21 => some x.column.shortfall
  | 22 => some x.column.spill
  | 23 => slotItem x.slot index
  | 15 | 16 | 17 | 27 | 28 => tipItem x code index
  | 24 | 25 | 26 => chuteItem x code index
  | _ => none

/-- R167 items 29 and 30: entries of a pass, index 0 to 3, or all, index 4. -/
def countItem (passOf : List PassId) (index : Nat) : Option Int :=
  if index = 4 then some passOf.length
  else (indexBelow 4 index).map fun p => ((passOf.filter fun q => decide (q = p)).length : Int)

def isolationItem (x : Option PendingIsolation) (index : Nat) : Option Int :=
  match index with
  | 0 => some (if x.isSome then 1 else 0)
  | 1 => some (orMinusOne (x.map fun i => (i.pass.val : Int)))
  | 2 => some (orMinusOne (x.map fun i => (i.station.toNat : Int)))
  | _ => none

/-- R167: the device items. -/
def deviceItem (s : State) (code index : Nat) : Option Int :=
  match code with
  | 29 => countItem (s.traffic.actions.map fun e => e.actuator.pass) index
  | 30 => countItem (s.traffic.pool.map fun e => e.actuator.pass) index
  | 31 =>
    match index with
    | 0 => some (if s.traffic.ctl.port.overrun then 1 else 0)
    | 1 => some (if s.traffic.field.overrun then 1 else 0)
    | _ => none
  | 32 => some s.resetCause.code
  | 33 => some s.time.toNat
  | 34 => isolationItem s.pendingIsolation index
  | 35 => some (if s.bar then 1 else 0)
  | _ => none

/-- R167: the value of a status item; none where the item code, the pass or the index is out of range. The pass is not
read for a device item. -/
def statusItem (s : State) (code : Nat) (p : Option PassId) (index : Nat) : Option Int :=
  if 29 ≤ code then deviceItem s code index else p.bind fun q => passItem (s.pass q) code index

/-! ### Stored fields (R171) -/

/-- A Bool as the codes 0 no (off) and 1 yes (on). -/
def boolCode (b : Bool) : Int := if b then 1 else 0

/-- R171: a Point Table field; an unwritten one is −1. -/
def PointEntry.read (e : PointEntry) : PointSel → Int
  | .valid => boolCode e.valid
  | .station => orMinusOne (e.station.map fun x => (x.toNat : Int))
  | .point => orMinusOne (e.point.map fun x => (x.toNat : Int))
  | .role => orMinusOne (e.role.map fun x => (x.code : Int))
  | .pass => orMinusOne (e.pass.map fun x => (x.val : Int))
  | .object => orMinusOne (e.object.map fun x => (x.val : Int))
  | .mode => orMinusOne (e.mode.map fun x => (x.code : Int))
  | .scaleNum => orMinusOne (e.scaleNum.map fun x => (x : Int))
  | .scaleDen => orMinusOne (e.scaleDen.map fun x => (x : Int))
  | .response => orMinusOne (e.response.map fun x => (x : Int))
  | .tolerance => orMinusOne (e.tolerance.map fun x => (x : Int))

def PassParams.read (pr : PassParams) : ParamSel → Int
  | .configured => boolCode pr.configured
  | .len => pr.len
  | .area => pr.area
  | .sensorOffset => pr.sensorOffset
  | .density w => (byWetness pr.density w : Nat)
  | .rounding => pr.rounding.code
  | .columnWeight => pr.columnWeight
  | .sensorWeight => pr.sensorWeight
  | .divergenceLimit => pr.divergenceLimit
  | .staleTime => pr.staleTime
  | .cushion => pr.cushion
  | .highFill => pr.highFill
  | .hysteresis => pr.hysteresis
  | .residue => pr.residue
  | .enableI => boolCode pr.enableI
  | .enableO => boolCode pr.enableO
  | .enableU => boolCode pr.enableU
  | .enableV => boolCode pr.enableV
  | .enableG => boolCode pr.enableG

/-- R171: the stored value of a field, in the coding of the table. -/
def Tables.read (tb : Tables) : TableField → Int
  | .point i sel => (tb.points.get i).read sel
  | .device .ownStation => tb.device.ownStation.toNat
  | .device .noticeStation => tb.device.noticeStation.toNat
  | .device .silenceTime => tb.device.silenceTime
  | .noticeEnable c => boolCode (tb.notices.get c).enabled
  | .noticePriority c => boolCode (decide ((tb.notices.get c).priority = .high))
  | .param p sel => (tb.params.get p).read sel
  | .cell p r c => (((tb.interlock.get p).row r).cell c).code
  | .holdTime p r => ((tb.interlock.get p).row r).holdTime
  | .opening p w => (byWetness (tb.openings.get p) w : Nat)
  | .grizzly p t => (tb.grizzly.get p).get t

end Sys2Proof.Machine
end

