-- ==== Sys2Proof/Machine/Requests.lean ====
section
/-! DEFINITION. The management responder (chapter 12): what each request does and how it is answered. A request is
checked in the order of R169 and answered with the status of the first check that fails. -/

namespace Sys2Proof.Machine

/-- What a request answers: the state after it, its status, and the Value of the reply. -/
structure Reply where
  state : State
  status : Status
  value : Word

/-- A request refused with a status changes nothing (R169). -/
def refuse (s : State) (st : Status) : Reply := { state := s, status := st, value := 0 }

/-- A request carried out, answered DONE with Value 0. -/
def done (s : State) : Reply := { state := s, status := .done, value := 0 }

/-- R169: the MRP is placed in the Control Port transmit queue once the request has been carried out or refused, with
the own station as it stands after the request. -/
def respond (t : Telegram) (endsInReset : Bool) (r : Reply) : State :=
  r.state.onTraffic fun v tr =>
    tr.placeControl v.tables
      { tel := replyTelegram v.tables.device.ownStation t r.status r.value, cls := .reply endsInReset }

/-! ### Reads (R167, R171) -/

def readValue (s : State) (o : Option Int) : Reply :=
  match o with
  | some x => { state := s, status := .done, value := BitVec.ofInt 32 x }
  | none => refuse s .refusedRange

/-- R167: a READ-ITEM of read kind 0; any read kind other than 0 or 1 is out of range (R169). -/
def readItem (t : Telegram) (s : State) : Reply :=
  if t.value = 0 then readValue s (statusItem s t.qual.toNat (requestPass t) t.ext.toNat)
  else refuse s .refusedRange

/-- R171: a READ-ITEM of read kind 1, answered in every state. -/
def readTable (f : Option TableField) (s : State) : Reply := readValue s (f.map s.tables.read)

/-! ### Write conditions and ranges (R172, R171) -/

/-- No pass is RUNNING, ALERT or TRIPPED (R172). -/
def noneInService (s : State) : Bool := allPasses.all fun p => !(s.pass p).mode.inService

/-- R172: per-pass tables while the pass is UNCONFIGURED or ISOLATED, device-wide tables while no pass is in
service. -/
def writeAllowed (s : State) : TableField → Bool
  | .point _ _ | .device _ | .noticeEnable _ | .noticePriority _ => noneInService s
  | .param p _ | .cell p _ _ | .holdTime p _ | .opening p _ | .grizzly p _ => !(s.pass p).mode.inService

/-- The least and greatest value of a Point Table field (R18, R171). -/
def PointSel.range : PointSel → Int × Int
  | .valid => (0, 1) | .station => (1, 253) | .point => (0, 63) | .role => (1, 14) | .pass => (0, 3)
  | .object => (0, 2) | .mode => (0, 2) | .scaleNum => (1, 1000) | .scaleDen => (1, 1000) | .response => (10, 1200)
  | .tolerance => (1, 10)

/-- The least and greatest value of a pass parameter (R56, R41, R171). -/
def ParamSel.range : ParamSel → Int × Int
  | .configured => (0, 1) | .len => (100, 6000) | .area => (100, 5000) | .sensorOffset => (0, 500)
  | .density _ => (100, 400) | .rounding => (0, 2) | .columnWeight => (0, 15) | .sensorWeight => (0, 15)
  | .divergenceLimit => (1, 1000) | .staleTime => (10, 6000) | .cushion => (0, 5999) | .highFill => (0, 5999)
  | .hysteresis => (0, 100) | .residue => (0, 100)
  | .enableI | .enableO | .enableU | .enableV | .enableG => (0, 1)

def within (x : Int) (r : Int × Int) : Bool := decide (r.1 ≤ x ∧ x ≤ r.2)

/-- The value lies in the range of the field (R171 and the owning chapters). -/
def inRange (x : Int) : TableField → Bool
  | .point _ sel => within x sel.range
  | .device .silenceTime => within x (0, 600)
  | .device .ownStation | .device .noticeStation => within x (1, 253)
  | .noticeEnable _ | .noticePriority _ => within x (0, 1)
  | .param _ sel => within x sel.range
  | .cell _ r _ => decide (0 ≤ x) && (Cell.ofCode r x.toNat).isSome
  | .holdTime _ _ => within x (0, 6000)
  | .opening _ _ => within x (0, 100)
  | .grizzly _ _ => within x (0, 60000)

/-! ### Storing a value -/

def PassParams.write (pr : PassParams) (n : Nat) : ParamSel → PassParams
  | .configured => { pr with configured := decide (n = 1) }
  | .len => { pr with len := n }
  | .area => { pr with area := n }
  | .sensorOffset => { pr with sensorOffset := n }
  | .density .dry => { pr with density := { pr.density with at0 := n } }
  | .density .damp => { pr with density := { pr.density with at1 := n } }
  | .density .wet => { pr with density := { pr.density with at2 := n } }
  | .density .slurry => { pr with density := { pr.density with at3 := n } }
  | .rounding => { pr with rounding := (Rounding.ofCode n).getD pr.rounding }
  | .columnWeight => { pr with columnWeight := n }
  | .sensorWeight => { pr with sensorWeight := n }
  | .divergenceLimit => { pr with divergenceLimit := n }
  | .staleTime => { pr with staleTime := n }
  | .cushion => { pr with cushion := n }
  | .highFill => { pr with highFill := n }
  | .hysteresis => { pr with hysteresis := n }
  | .residue => { pr with residue := n }
  | .enableI => { pr with enableI := decide (n = 1) }
  | .enableO => { pr with enableO := decide (n = 1) }
  | .enableU => { pr with enableU := decide (n = 1) }
  | .enableV => { pr with enableV := decide (n = 1) }
  | .enableG => { pr with enableG := decide (n = 1) }

/-- A Point Table field other than Valid becomes written with a value in its range (R18, R22). -/
def PointEntry.write (e : PointEntry) (n : Nat) : PointSel → PointEntry
  | .valid => e
  | .station => { e with station := some (BitVec.ofNat 8 n) }
  | .point => { e with point := some (BitVec.ofNat 8 n) }
  | .role => { e with role := Role.ofCode n }
  | .pass => { e with pass := indexBelow 4 n }
  | .object => { e with object := indexBelow 3 n }
  | .mode => { e with mode := HandlingMode.ofCode n }
  | .scaleNum => { e with scaleNum := some n }
  | .scaleDen => { e with scaleDen := some n }
  | .response => { e with response := some n }
  | .tolerance => { e with tolerance := some n }

def setOpening (q : Quad Nat) (w : Wetness) (n : Nat) : Quad Nat :=
  match w with
  | .dry => { q with at0 := n }
  | .damp => { q with at1 := n }
  | .wet => { q with at2 := n }
  | .slurry => { q with at3 := n }

/-- The tables with the value stored in the field (R172). `n` is the value, in range and so not negative. -/
def Tables.write (tb : Tables) (n : Nat) : TableField → Tables
  | .point i sel => { tb with points := tb.points.set i ((tb.points.get i).write n sel) }
  | .device .ownStation => { tb with device := { tb.device with ownStation := BitVec.ofNat 8 n } }
  | .device .noticeStation => { tb with device := { tb.device with noticeStation := BitVec.ofNat 8 n } }
  | .device .silenceTime => { tb with device := { tb.device with silenceTime := n } }
  | .noticeEnable c => { tb with notices := tb.notices.set c { tb.notices.get c with enabled := decide (n = 1) } }
  | .noticePriority c =>
    { tb with notices := tb.notices.set c { tb.notices.get c with priority := if n = 1 then .high else .low } }
  | .param p sel => { tb with params := tb.params.set p ((tb.params.get p).write n sel) }
  | .cell p r c =>
    let t := tb.interlock.get p
    let row := (t.row r).setCell c ((Cell.ofCode r n).getD ((t.row r).cell c))
    { tb with interlock := tb.interlock.set p (t.setRow r row) }
  | .holdTime p r =>
    let t := tb.interlock.get p
    { tb with interlock := tb.interlock.set p (t.setRow r { t.row r with holdTime := n }) }
  | .opening p w => { tb with openings := tb.openings.set p (setOpening (tb.openings.get p) w n) }
  | .grizzly p t => { tb with grizzly := tb.grizzly.set p ((tb.grizzly.get p).set t n) }

/-- The state with a value stored in a table field. -/
def State.store (f : TableField) (x : Int) (s : State) : State := { s with tables := s.tables.write x.toNat f }

/-- R169, R172: the checks of a write up to its value (addressing has passed), then `carryOut`. -/
def checkedWrite (f : TableField) (x : Int) (s : State) (carryOut : State → Reply) : Reply :=
  if !writeAllowed s f then refuse s .refusedState
  else if !inRange x f then refuse s .refusedRange
  else carryOut s

/-! ### The writes -/

/-- R172: a WRITE-ENTRY of a stored field without particular behaviour; `none` is an addressing R171 does not list. -/
def writeField (f : Option TableField) (x : Int) (s : State) : Reply :=
  match f with
  | none => refuse s .refusedRange
  | some f => checkedWrite f x s fun s => done (s.store f x)

/-- R23: two entries may not both be valid: the same key, or the same role of the same object (for a pass-level role,
of the same pass). -/
def pointsClash (a b : PointEntry) : Bool :=
  decide (a.station = b.station ∧ a.point = b.point)
    || decide (a.role = b.role ∧ a.pass = b.pass)
        && ((a.role.map Role.isPassLevel).getD false || decide (a.object = b.object))

/-- R23: another valid entry of the table forbids entry `e` at index `i`. -/
def isDuplicate (tb : Tables) (i : Fin 128) (e : PointEntry) : Bool :=
  (List.finRange 128).any fun j => decide (j ≠ i) && (tb.points.get j).valid && pointsClash e (tb.points.get j)

/-- R24: the Action Queue holds an entry for an actuator of the pass the entry names. -/
def pointBusy (s : State) (e : PointEntry) : Bool :=
  match e.pass with
  | some p => passBusy s.traffic p
  | none => false

/-- R21, R22: the Object of an entry lies in the range of its role: not read for a pass-level role, 0 or 1 for a chute
role, 0 to 2 for a tip-point role. -/
def objectFits (e : PointEntry) : Bool :=
  match e.role with
  | none => false
  | some r =>
    if r.isPassLevel then true
    else
      match e.object with
      | none => false
      | some o => !r.isChute || decide (o ≠ 2)

/-- R21: the key and routing fields of an entry are complete. -/
def isComplete (e : PointEntry) : Bool := e.station.isSome && e.point.isSome && e.role.isSome && e.pass.isSome && objectFits e

/-- R21: an entry made valid, its unwritten fields at their defaults. -/
def madeValid (e : PointEntry) : PointEntry :=
  { e with
    valid := true
    mode := some (e.mode.getD .forward)
    scaleNum := some (e.scaleNum.getD 1)
    scaleDen := some (e.scaleDen.getD 1)
    response := some (e.response.getD 100)
    tolerance := some (e.tolerance.getD 3) }

/-- The state with entry `i` of the Point Table replaced. -/
def State.setPoint (i : Fin 128) (e : PointEntry) (s : State) : State :=
  { s with tables := { s.tables with points := s.tables.points.set i e } }

/-- R21, R22, R24: a write of Valid. -/
def writeValidField (i : Fin 128) (x : Int) (s : State) : Reply :=
  checkedWrite (.point i .valid) x s fun s =>
    let e := s.tables.points.get i
    if x = 1 then
      if e.valid then done s
      else if !isComplete e then refuse s .refusedRange
      else if pointBusy s e then refuse s .busy
      else if isDuplicate s.tables i e then refuse s .duplicate
      else done (s.setPoint i (madeValid e))
    else if e.valid then
      if pointBusy s e then refuse s .busy else done (s.setPoint i blankPoint)
    else done (s.setPoint i blankPoint)

/-- R23: a write of the field can break a constraint of R23. -/
def PointSel.isRouting : PointSel → Bool
  | .station | .point | .role | .pass | .object => true
  | .valid | .mode | .scaleNum | .scaleDen | .response | .tolerance => false

/-- R22 to R24: a write of a Point Table field other than Valid. A write that would leave a valid entry as it is changes
nothing and is not answered BUSY (R24, R172; DEDUCED, log entry 11). -/
def writePointSel (i : Fin 128) (sel : PointSel) (x : Int) (s : State) : Reply :=
  checkedWrite (.point i sel) x s fun s =>
    let e := s.tables.points.get i
    let e' := e.write x.toNat sel
    if !e.valid then done (s.setPoint i e')
    else if e' = e then done s
    else if !objectFits e' then refuse s .refusedRange
    else if pointBusy s e || pointBusy s e' then refuse s .busy
    else if sel.isRouting && isDuplicate s.tables i e' then refuse s .duplicate
    else done (s.setPoint i e')

/-- R161: the pass enters ISOLATED and its mark is set; the change is reported. -/
def State.configurePass (p : PassId) (s : State) : State :=
  let stored := s.store (.param p .configured) 1
  let moved := stored.setPass p { stored.pass p with mode := .isolated }
  State.reportChange p { moved with tables := { moved.tables with marks := moved.tables.marks.set p true } }

/-- R161: the pass becomes UNCONFIGURED, its mark is cleared, every block clears the pass, the change is reported. -/
def State.unconfigurePass (p : PassId) (s : State) : State :=
  let stored := s.store (.param p .configured) 0
  let moved := stored.setPass p (clearedPass .unconfigured)
  State.reportChange p
    { moved with
      tables := { moved.tables with marks := moved.tables.marks.set p false }
      traffic := { moved.traffic with history := moved.traffic.history.set p (Duo.all clearedHistory) } }

/-- R161: a write of Configured. -/
def writeConfiguredField (p : PassId) (x : Int) (s : State) : Reply :=
  checkedWrite (.param p .configured) x s fun s =>
    match (s.pass p).mode with
    | .unconfigured => if x = 1 then done (s.configurePass p) else done s
    | _ =>
      if x = 1 then done s
      else if passBusy s.traffic p then refuse s .busy
      else done (s.unconfigurePass p)

/-- R77: a write of L. -/
def writeLength (p : PassId) (x : Int) (s : State) : Reply :=
  checkedWrite (.param p .len) x s fun s =>
    let stored := s.store (.param p .len) x
    if (stored.pass p).mode = .isolated then done (stored.resetHeights p) else done stored

/-- R87: a write of a grizzly limit sets the standing against the new limit; for an UNCONFIGURED pass without any
report. -/
def writeGrizzly (p : PassId) (t : TipId) (x : Int) (s : State) : Reply :=
  checkedWrite (.grizzly p t) x s fun s =>
    let stored := s.store (.grizzly p t) x
    if (stored.pass p).mode = .unconfigured then
      done (stored.setTip p t
        { (stored.pass p).tips.get t with
          standing := standingOf x.toNat ((stored.pass p).column.accums.get t).tonnage })
    else done (stored.setStanding p t)

/-- R16: a write of the line-silence time restarts or stops the line-silence timer. -/
def writeSilenceTime (x : Int) (s : State) : Reply :=
  checkedWrite (.device .silenceTime) x s fun s =>
    done { s.store (.device .silenceTime) x with silence := startedSilence x.toNat }

/-! ### The isolation sequence (R173, R160) -/

/-- R173: an ISOLATE-REQUEST. -/
def isolateRequest (t : Telegram) (s : State) : Reply :=
  if s.bar then refuse s .refusedBarred
  else
    match requestPass t with
    | none => refuse s .refusedRange
    | some p => done { s with pendingIsolation := some { pass := p, station := t.src } }

/-- R160: a matched confirm, by the pass state. -/
def confirmIsolation (p : PassId) (s : State) : Reply :=
  if !(s.pass p).mode.inService then refuse s .refusedState
  else if !atRest s.view s.traffic p then refuse s .busy
  else done (s.isolatePass p)

/-- R173: an ISOLATE-CONFIRM. -/
def isolateConfirm (t : Telegram) (s : State) : Reply :=
  if s.bar then refuse s .refusedBarred
  else
    match requestPass t with
    | none => refuse s .refusedRange
    | some p =>
      let cleared := { s with pendingIsolation := none }
      if s.pendingIsolation = some { pass := p, station := t.src } then confirmIsolation p cleared
      else { state := { cleared with bar := true }, status := .refusedBarred, value := 0 }

/-! ### Requests for a pass -/

/-- R169 step 3: a pass above 3 is answered REFUSED-RANGE. -/
def forPass (t : Telegram) (s : State) (f : PassId → Reply) : Reply :=
  match requestPass t with
  | none => refuse s .refusedRange
  | some p => f p

/-- R57: the parameters are consistent when X + Y does not exceed L − 2. -/
def isConsistent (pr : PassParams) : Bool := decide (pr.cushion + pr.highFill + 2 ≤ pr.len)

/-- R160: a RESTORE. -/
def restoreRequest (t : Telegram) (s : State) : Reply :=
  forPass t s fun p =>
    if (s.pass p).mode ≠ .isolated then refuse s .refusedState
    else if !isConsistent (s.params p) then refuse s .refusedRange
    else done ((s.restorePass p).evaluate p false false none)

/-- R157: an ACKNOWLEDGE. -/
def acknowledgeRequest (t : Telegram) (s : State) : Reply :=
  forPass t s fun p =>
    if (s.pass p).mode ≠ .alert then refuse s .notAlert
    else done ((s.acknowledgePass p).evaluate p false false none)

/-- R159 steps 1 to 3: cause set and sticky flags emptied, column cleared, level NONE. -/
def resetRecords (x : Pass) : Pass :=
  { x with
    est := { x.est with causes := noCauses, sticky := noFlags }
    column := clearedColumn
    alarm := x.alarm.quieted }

/-- R159: an accepted pass reset, its five steps in order. -/
def State.resetPass (p : PassId) (s : State) : State :=
  let before := (s.pass p).column
  let cleared := s.setPass p (resetRecords (s.pass p))
  let moved :=
    match (cleared.pass p).mode with
    | .alert | .tripped => (cleared.setPass p { cleared.pass p with mode := .running }).reportChange p
    | .running | .isolated | .unconfigured => cleared
  (moved.emptySlot p 4).completeColumn p before false false none

/-- R159: a PASS-RESET, by the pass state. -/
def passResetRequest (t : Telegram) (s : State) : Reply :=
  forPass t s fun p =>
    match (s.pass p).mode with
    | .unconfigured => refuse s .refusedState
    | .isolated => done (s.resetPass p)
    | .running | .alert | .tripped => if atRest s.view s.traffic p then done (s.resetPass p) else refuse s .busy

/-- R47: a SURVEY-LOAD. -/
def surveyRequest (t : Telegram) (s : State) : Reply :=
  forPass t s fun p =>
    if (s.pass p).mode = .unconfigured then refuse s .refusedState
    else if !within t.value.toInt (1, 60000) then refuse s .refusedRange
    else
      match Wetness.ofCode t.qual.toNat with
      | none => refuse s .refusedRange
      | some w => done (s.changeColumn p ((s.pass p).column.survey s.time t.value.toInt.toNat w) false false none)

/-! ### Requests for the device -/

/-- R12, R168: both overrun flags are cleared. -/
def State.clearOverruns (s : State) : State :=
  { s with
    traffic :=
      { s.traffic with
        ctl := { s.traffic.ctl with port := { s.traffic.ctl.port with overrun := false } }
        field := { s.traffic.field with overrun := false } } }

/-- R168: a CLEAR-FLAGS, of a pass (target 0 to 3) or of the device (target 4). -/
def clearFlagsRequest (t : Telegram) (s : State) : Reply :=
  if t.table = 4 then done s.clearOverruns
  else
    forPass t s fun p =>
      let x := s.pass p
      if x.mode = .unconfigured then refuse s .refusedState
      else done (s.setPass p { x with est := { x.est with sticky := noFlags } })

/-- R174: the time base is set to the Value. -/
def State.setTime (x : Word) (s : State) : State := { s with time := x }

/-- R175, R17: the DEVICE-RESET is taken; it is answered DONE and performed when that reply has gone out. -/
def State.takeReset (s : State) : State := { s with resetPending := true }

end Sys2Proof.Machine
end

