-- ==== Sys2Proof/Machine/Receive.lean ====
section
/-! DEFINITION. Receiving (sections 1.3, 2.4, 2.5): the fate of a telegram that arrives at a port, and what the part
does with each fate. -/

namespace Sys2Proof.Machine

/-- The fates of an arriving telegram (R5 to R9, R17, R26, R28). -/
inductive Fate where
  /-- R5: the line check does not match. -/
  | badCheck
  /-- R17: a DEVICE-RESET is pending. -/
  | discarded
  /-- R6: the address is invalid. -/
  | badAddress
  /-- R9: the Destination is 255. -/
  | broadcast
  /-- R7, R8: to the own station, any Kind but MRQ. -/
  | ownOther
  /-- R8: an MRQ to the own station on the Field Port. -/
  | refusedPort
  /-- R7: an MRQ to the own station on the Control Port. -/
  | request (r : Request)
  /-- R7, R8: relayed untouched to the other port. -/
  | relay
  /-- R26: a command for an actuator of a configured pass. -/
  | command (a : Actuator)
  /-- R28: a report to be applied. -/
  | report (h : Hit)
deriving DecidableEq, Repr

/-- R26: the fate of a CMD by its lookup. -/
def commandFate (s : State) (o : Option Hit) : Fate :=
  match o with
  | none => .relay
  | some h =>
    match h.actuator with
    | none => .relay
    | some a => if (s.pass h.pass).mode = .unconfigured then .relay else .command a

/-- R28: the fate of an RPT by its lookup. -/
def reportFate (s : State) (o : Option Hit) : Fate :=
  match o with
  | none => .relay
  | some h => if h.role.isCommand = true ∨ (s.pass h.pass).mode = .unconfigured then .relay else .report h

/-- R5 to R9, R17, R26, R28: the fate of a telegram that arrives at a port. -/
def fate (port : PortId) (t : Telegram) (s : State) : Fate :=
  if !checkHolds t then .badCheck
  else if s.resetPending then .discarded
  else if !addressValid t then .badAddress
  else if t.dest = broadcastStation then .broadcast
  else if t.dest = s.tables.device.ownStation then
    if t.kind = kindMRQ then
      match port with
      | .control => .request (requestOf t)
      | .field => .refusedPort
    else .ownOther
  else
    match port with
    | .control => if t.kind = kindCMD then commandFate s (lookup s.tables t.dest t.point) else .relay
    | .field => if t.kind = kindRPT then reportFate s (lookup s.tables t.src t.point) else .relay

/-- R16: a telegram received on the Control Port starts the line-silence timer anew, or stops it where the
line-silence time is 0. The Field Port times nothing. -/
def heard (port : PortId) (s : State) : State :=
  match port with
  | .control => { s with silence := startedSilence s.tables.device.silenceTime }
  | .field => s

/-- R7, R8: a telegram received at `port` is placed as a relayed telegram in the other port's transmit queue. -/
def State.relayFrom (port : PortId) (t : Telegram) (s : State) : State :=
  s.onTraffic fun v tr =>
    match port with
    | .control => tr.placeField v.tables { tel := t, cls := .relayed }
    | .field => tr.placeControl v.tables { tel := t, cls := .relayed }

/-- R9: a broadcast is relayed; an MRQ TIME-SET on the Control Port is also taken, without a reply. -/
def State.takeBroadcast (port : PortId) (t : Telegram) (s : State) : State :=
  let relayed := s.relayFrom port t
  if port = .control ∧ isTimeSet t = true then relayed.setTime t.value else relayed

/-- R8: an MRQ on the Field Port is answered REFUSED-PORT there. -/
def State.refuseAtField (t : Telegram) (s : State) : State :=
  s.onTraffic fun v tr =>
    tr.placeField v.tables
      { tel := replyTelegram v.tables.device.ownStation t .refusedPort 0, cls := .refusedPort }

/-- R114: a command reaches the Interlock Unit. -/
def State.takeCommand (a : Actuator) (t : Telegram) (s : State) : State := s.onTraffic fun v tr => tr.arrive v a t

/-- R30: an applied report is relayed by its handling mode, after everything it caused (R28). -/
def State.relayApplied (h : Hit) (t : Telegram) (s : State) : State :=
  match h.entry.mode.getD .forward with
  | .forward => s.relayFrom .field t
  | .annotate => s.relayFrom .field (withCheck { t with ann := BitVec.ofNat 8 (conditionCode (s.pass h.pass)) })
  | .absorb => s

/-- R28: an applied report reaches the blocks its role names, and is then relayed. -/
def applyReport (effect : Hit → Telegram → State → State) (h : Hit) (t : Telegram) (s : State) : State :=
  (effect h t s).relayApplied h t

/-- R28: what the blocks named for a role do with its report. A command role is never applied. -/
def reportEffect : Role → Hit → Telegram → State → State
  | .level => levelReport
  | .tip => tipReport
  | .draw => drawReport
  | .grizzlyClear => grizzlyClearReport
  | .chuteMoisture => chuteMoistureReport
  | .gatePosition => gatePositionReport
  | .signalState => signalStateReport
  | .breakerState => breakerStateReport
  | .wagon => wagonReport
  | .noticePost => noticePostReport
  | .noticeTaken => noticeTakenReport
  | .gateSet | .signalSet | .breakerSet => fun _ _ s => s

/-- R169, R170: what the responder does with a request. -/
def requestReply (r : Request) (t : Telegram) (s : State) : Reply :=
  match r with
  | .unknown => refuse s .unknown
  | .readItem => readItem t s
  | .tableRead f => readTable f s
  | .writeEntry f => writeField f t.value.toInt s
  | .writeValid i => writeValidField i t.value.toInt s
  | .writePointField i sel => writePointSel i sel t.value.toInt s
  | .writeConfigured p => writeConfiguredField p t.value.toInt s
  | .writeL p => writeLength p t.value.toInt s
  | .writeGrizzlyLimit p n => writeGrizzly p n t.value.toInt s
  | .writeLineSilenceTime => writeSilenceTime t.value.toInt s
  | .isolateRequest => isolateRequest t s
  | .isolateConfirm => isolateConfirm t s
  | .restore => restoreRequest t s
  | .acknowledge => acknowledgeRequest t s
  | .passReset => passResetRequest t s
  | .surveyLoad => surveyRequest t s
  | .clearFlags => clearFlagsRequest t s
  | .timeSet => done (s.setTime t.value)
  | .deviceReset => done s.takeReset

/-- The request is a DEVICE-RESET, whose DONE ends in the reset (R17). -/
def Request.isReset : Request → Bool
  | .deviceReset => true
  | _ => false

/-- What the part does with an arriving telegram of a given fate. -/
def deal (port : PortId) (t : Telegram) (s : State) (f : Fate) : State :=
  match f with
  | .badCheck | .discarded => s
  | .badAddress | .ownOther => heard port s
  | .broadcast => (heard port s).takeBroadcast port t
  | .refusedPort => (heard port s).refuseAtField t
  | .relay => (heard port s).relayFrom port t
  | .request r => respond t r.isReset (requestReply r t (heard port s))
  | .command a => (heard port s).takeCommand a t
  | .report h => applyReport (reportEffect h.role) h t (heard port s)

/-- The part receives a telegram at a port. -/
def receive (port : PortId) (t : Telegram) (s : State) : State := deal port t s (fate port t s)

end Sys2Proof.Machine
end

