-- ==== Sys2Proof/Machine/ControlCommands.lean ====
section
/-! DEFINITION. The meanings of the three command rows (R114): a CMD received on the Control Port that hits a command
role of a configured pass. A telegram with another fate is dealt with by the fate it has (DESIGN CHOICE, log entry 2). -/

namespace Sys2Proof.Machine

/-- GATE_SET (R114, R115, R119): supersede, then a close to the Action Queue or an open to the verdict procedure. -/
def execGateSet (t : Telegram) (s : State) : Result :=
  match fate .control t s with
  | .command (.gate p c) => .next ((heard .control s).takeCommand (.gate p c) t)
  | f => .next (deal .control t s f)

/-- SIGNAL_SET (R114): supersede, then a signal off to the Action Queue or a signal on to the verdict procedure. -/
def execSignalSet (t : Telegram) (s : State) : Result :=
  match fate .control t s with
  | .command (.signal p n) => .next ((heard .control s).takeCommand (.signal p n) t)
  | f => .next (deal .control t s f)

/-- BREAKER_SET (R114): supersede, then a stop to the Action Queue or a start to the verdict procedure. -/
def execBreakerSet (t : Telegram) (s : State) : Result :=
  match fate .control t s with
  | .command (.breaker p n) => .next ((heard .control s).takeCommand (.breaker p n) t)
  | f => .next (deal .control t s f)

end Sys2Proof.Machine
end

