-- ==== Sys2Proof/Machine/LineCommands.lean ====
section
/-! DEFINITION. The meanings of the power, line and relaying rows. A telegram row whose telegram has, in the state it
arrives in, another fate than the row names is dealt with by the fate it has (DESIGN CHOICE, log entry 2): naming a row changes nothing
about a telegram. -/

namespace Sys2Proof.Machine

/-- POWER_ON (R176): start-up with reset cause POWER-ON. -/
def execPowerOn (s : State) : Result := .next (s.startUp .powerOn)

/-- LINE_FREE (R13): the transmission on the port's line ends and its arbiter chooses; the end of a DEVICE-RESET's DONE
performs the reset (R17). -/
def execLineFree (port : PortId) (s : State) : Result :=
  match port with
  | .control => .next s.controlLineFree
  | .field => .next s.fieldLineFree

/-- LINE_CHECK_FAIL (R5): the telegram is discarded; nothing changes, the line-silence timer included. -/
def execLineCheckFail (port : PortId) (t : Telegram) (s : State) : Result :=
  match fate port t s with
  | .badCheck => .next s
  | f => .next (deal port t s f)

/-- INVALID_ADDRESS (R6): discarded, but on the Control Port the line-silence timer starts anew (R16). -/
def execInvalidAddress (port : PortId) (t : Telegram) (s : State) : Result :=
  match fate port t s with
  | .badAddress => .next (heard port s)
  | f => .next (deal port t s f)

/-- RELAY (R7, R8): placed unchanged in the other port's transmit queue. -/
def execRelay (port : PortId) (t : Telegram) (s : State) : Result :=
  match fate port t s with
  | .relay => .next ((heard port s).relayFrom port t)
  | f => .next (deal port t s f)

/-- BROADCAST (R9): relayed untouched and not classified; a TIME-SET on the Control Port is also taken. -/
def execBroadcast (port : PortId) (t : Telegram) (s : State) : Result :=
  match fate port t s with
  | .broadcast => .next ((heard port s).takeBroadcast port t)
  | f => .next (deal port t s f)

/-- REFUSED_PORT (R8): answered REFUSED-PORT on the Field Port. -/
def execRefusedPort (t : Telegram) (s : State) : Result :=
  match fate .field t s with
  | .refusedPort => .next (s.refuseAtField t)
  | f => .next (deal .field t s f)

/-- OWN_STATION_OTHER_KIND (R7, R8): discarded; on the Control Port the line-silence timer starts anew (R16). -/
def execOwnStationOtherKind (port : PortId) (t : Telegram) (s : State) : Result :=
  match fate port t s with
  | .ownOther => .next (heard port s)
  | f => .next (deal port t s f)

/-- DISCARD_WHILE_RESET_PENDING (R17): discarded, without starting the line-silence timer. -/
def execDiscardWhileResetPending (port : PortId) (t : Telegram) (s : State) : Result :=
  match fate port t s with
  | .discarded => .next s
  | f => .next (deal port t s f)

end Sys2Proof.Machine
end

