-- ==== Sys2Proof/Machine/ReportCommands.lean ====
section
/-! DEFINITION. The meanings of the eleven report rows: an RPT received on the Field Port that hits a report role of a
configured pass is applied by the blocks its role names and then relayed (R28, R30). A telegram with another fate is
dealt with by the fate it has (DESIGN CHOICE, log entry 2). -/

namespace Sys2Proof.Machine

/-- A report row: `effect` is what the blocks named for `role` do. -/
def onReport (role : Role) (effect : Hit → Telegram → State → State) (t : Telegram) (s : State) : State :=
  match fate .field t s with
  | .report h => if h.role = role then applyReport effect h t s else deal .field t s (.report h)
  | f => deal .field t s f

/-- LEVEL (R60). -/
def execLevel (t : Telegram) (s : State) : Result := .next (onReport .level levelReport t s)

/-- TIP (R36). -/
def execTip (t : Telegram) (s : State) : Result := .next (onReport .tip tipReport t s)

/-- DRAW (R40). -/
def execDraw (t : Telegram) (s : State) : Result := .next (onReport .draw drawReport t s)

/-- GRIZZLY_CLEAR (R39). -/
def execGrizzlyClear (t : Telegram) (s : State) : Result := .next (onReport .grizzlyClear grizzlyClearReport t s)

/-- CHUTE_MOISTURE (R43, R103). -/
def execChuteMoisture (t : Telegram) (s : State) : Result := .next (onReport .chuteMoisture chuteMoistureReport t s)

/-- GATE_POSITION (R97). -/
def execGatePosition (t : Telegram) (s : State) : Result := .next (onReport .gatePosition gatePositionReport t s)

/-- WAGON (R100). -/
def execWagon (t : Telegram) (s : State) : Result := .next (onReport .wagon wagonReport t s)

/-- SIGNAL_STATE (R80, R82). -/
def execSignalState (t : Telegram) (s : State) : Result := .next (onReport .signalState signalStateReport t s)

/-- BREAKER_STATE (R81, R82). -/
def execBreakerState (t : Telegram) (s : State) : Result := .next (onReport .breakerState breakerStateReport t s)

/-- NOTICE_POST (R106). -/
def execNoticePost (t : Telegram) (s : State) : Result := .next (onReport .noticePost noticePostReport t s)

/-- NOTICE_TAKEN (R107). -/
def execNoticeTaken (t : Telegram) (s : State) : Result := .next (onReport .noticeTaken noticeTakenReport t s)

end Sys2Proof.Machine
end

