-- ==== Sys2Proof/Machine/RequestCommands.lean ====
section
/-! DEFINITION. The meanings of the nineteen management rows: an MRQ to the own station received on the Control Port is
carried out or refused and answered with one MRP (R7, R169). A telegram with another fate is dealt with by the fate it
has (DESIGN CHOICE, log entry 2). -/

namespace Sys2Proof.Machine

/-- A request carried out on the state as the telegram's receipt left it, and answered (R16, R169). -/
def answered (t : Telegram) (reply : State → Reply) (s : State) : Result :=
  .next (respond t false (reply (heard .control s)))

/-- UNKNOWN_REQUEST (R169): a request code outside 1 to 11 is answered UNKNOWN. -/
def execUnknownRequest (t : Telegram) (s : State) : Result :=
  match fate .control t s with
  | .request .unknown => answered t (fun s => refuse s .unknown) s
  | f => .next (deal .control t s f)

/-- READ_ITEM (R167): a status item is read. -/
def execReadItem (t : Telegram) (s : State) : Result :=
  match fate .control t s with
  | .request .readItem => answered t (readItem t) s
  | f => .next (deal .control t s f)

/-- TABLE_READ (R171): a stored field is read in its coding. -/
def execTableRead (t : Telegram) (s : State) : Result :=
  match fate .control t s with
  | .request (.tableRead x) => answered t (readTable x) s
  | f => .next (deal .control t s f)

/-- WRITE_ENTRY (R172): a stored field without particular behaviour is written. -/
def execWriteEntry (t : Telegram) (s : State) : Result :=
  match fate .control t s with
  | .request (.writeEntry x) => answered t (writeField x t.value.toInt) s
  | f => .next (deal .control t s f)

/-- WRITE_VALID (R21, R22): Valid of a Point Table entry is written. -/
def execWriteValid (t : Telegram) (s : State) : Result :=
  match fate .control t s with
  | .request (.writeValid i) => answered t (writeValidField i t.value.toInt) s
  | f => .next (deal .control t s f)

/-- WRITE_POINT_FIELD (R22): another field of a Point Table entry is written. -/
def execWritePointField (t : Telegram) (s : State) : Result :=
  match fate .control t s with
  | .request (.writePointField i sel) => answered t (writePointSel i sel t.value.toInt) s
  | f => .next (deal .control t s f)

/-- WRITE_CONFIGURED (R161): a pass is configured or unconfigured. -/
def execWriteConfigured (t : Telegram) (s : State) : Result :=
  match fate .control t s with
  | .request (.writeConfigured p) => answered t (writeConfiguredField p t.value.toInt) s
  | f => .next (deal .control t s f)

/-- WRITE_L (R77): the length of a pass is written. -/
def execWriteL (t : Telegram) (s : State) : Result :=
  match fate .control t s with
  | .request (.writeL p) => answered t (writeLength p t.value.toInt) s
  | f => .next (deal .control t s f)

/-- WRITE_GRIZZLY_LIMIT (R87): a grizzly limit is written and its standing set anew. -/
def execWriteGrizzlyLimit (t : Telegram) (s : State) : Result :=
  match fate .control t s with
  | .request (.writeGrizzlyLimit p n) => answered t (writeGrizzly p n t.value.toInt) s
  | f => .next (deal .control t s f)

/-- WRITE_LINE_SILENCE_TIME (R16): the line-silence time is written and the timer restarted or stopped. -/
def execWriteLineSilenceTime (t : Telegram) (s : State) : Result :=
  match fate .control t s with
  | .request .writeLineSilenceTime => answered t (writeSilenceTime t.value.toInt) s
  | f => .next (deal .control t s f)

/-- ISOLATE_REQUEST (R173). -/
def execIsolateRequest (t : Telegram) (s : State) : Result :=
  match fate .control t s with
  | .request .isolateRequest => answered t (isolateRequest t) s
  | f => .next (deal .control t s f)

/-- ISOLATE_CONFIRM (R173, R160). -/
def execIsolateConfirm (t : Telegram) (s : State) : Result :=
  match fate .control t s with
  | .request .isolateConfirm => answered t (isolateConfirm t) s
  | f => .next (deal .control t s f)

/-- RESTORE (R160). -/
def execRestore (t : Telegram) (s : State) : Result :=
  match fate .control t s with
  | .request .restore => answered t (restoreRequest t) s
  | f => .next (deal .control t s f)

/-- ACKNOWLEDGE (R157). -/
def execAcknowledge (t : Telegram) (s : State) : Result :=
  match fate .control t s with
  | .request .acknowledge => answered t (acknowledgeRequest t) s
  | f => .next (deal .control t s f)

/-- PASS_RESET (R159). -/
def execPassReset (t : Telegram) (s : State) : Result :=
  match fate .control t s with
  | .request .passReset => answered t (passResetRequest t) s
  | f => .next (deal .control t s f)

/-- SURVEY_LOAD (R47). -/
def execSurveyLoad (t : Telegram) (s : State) : Result :=
  match fate .control t s with
  | .request .surveyLoad => answered t (surveyRequest t) s
  | f => .next (deal .control t s f)

/-- CLEAR_FLAGS (R168). -/
def execClearFlags (t : Telegram) (s : State) : Result :=
  match fate .control t s with
  | .request .clearFlags => answered t (clearFlagsRequest t) s
  | f => .next (deal .control t s f)

/-- TIME_SET (R174): unicast, answered DONE, or broadcast, relayed and not answered (R9). -/
def execTimeSet (t : Telegram) (s : State) : Result :=
  match fate .control t s with
  | .request .timeSet => answered t (fun s => done (s.setTime t.value)) s
  | .broadcast => .next ((heard .control s).takeBroadcast .control t)
  | f => .next (deal .control t s f)

/-- DEVICE_RESET (R175, R17): answered DONE; both ports then discard what they receive until the reset is performed. -/
def execDeviceReset (t : Telegram) (s : State) : Result :=
  match fate .control t s with
  | .request .deviceReset => .next (respond t true (done (heard .control s).takeReset))
  | f => .next (deal .control t s f)

end Sys2Proof.Machine
end

