-- ==== Sys2Proof/Machine/TimerCommands.lean ====
section
/-! DEFINITION. The meanings of the four timer rows: the remaining duration of a running timer runs out. The command is
the event itself, at whatever remaining duration the timer stands (DESIGN CHOICE, log entry 4). A DEVICE-RESET whose DONE is lost to a
full queue during the event is performed with it (R175). -/

namespace Sys2Proof.Machine

/-- The passes in the order named, then those not named in number order (R154 allows any order). -/
def passOrder (order : List PassId) : List PassId := order.eraseDups ++ allPasses.filter fun p => !order.contains p

/-- R16: the timer stops and the trip cause LINE-SILENCE is handed to every configured pass. -/
def State.silenceRunsOut (order : List PassId) (s : State) : State :=
  match s.silence with
  | none => s
  | some _ => (passOrder order).foldl (fun st p => st.tripCause p .lineSilence none) { s with silence := none }

/-- R141: the deadline of the actuator's ISSUED entry runs out, and the entry fails. -/
def State.deadlineRunsOut (a : Actuator) (s : State) : State :=
  match issuedEntry s.traffic a with
  | none => s
  | some e => s.failAction e none

/-- LINE_SILENCE_EXPIRY (R16). -/
def execLineSilenceExpiry (order : List PassId) (s : State) : Result := .next (s.silenceRunsOut order).settleReset

/-- SAMPLE_STALE (R61). -/
def execSampleStale (p : PassId) (s : State) : Result := .next (s.staleSample p).settleReset

/-- HOLD_EXPIRY (R132). -/
def execHoldExpiry (a : Actuator) (s : State) : Result :=
  .next (s.onTraffic fun v tr => tr.expireHeld v.tables a).settleReset

/-- DEADLINE_EXPIRY (R141, R143). -/
def execDeadlineExpiry (a : Actuator) (s : State) : Result := .next (s.deadlineRunsOut a).settleReset

end Sys2Proof.Machine
end

