-- ==== Sys2Proof/Machine/Dispatch.lean ====
section
/-! DEFINITION. One arm per command: each calls its meaning. -/

namespace Sys2Proof.Machine

def exec (i : Instr) (s : State) : Host.Outcome State Fault Refusal :=
  match i with
  | .powerOn => Sys2Proof.Machine.execPowerOn s
  | .lineFree port => Sys2Proof.Machine.execLineFree port s
  | .lineCheckFail port t => Sys2Proof.Machine.execLineCheckFail port t s
  | .invalidAddress port t => Sys2Proof.Machine.execInvalidAddress port t s
  | .relay port t => Sys2Proof.Machine.execRelay port t s
  | .broadcast port t => Sys2Proof.Machine.execBroadcast port t s
  | .refusedPort t => Sys2Proof.Machine.execRefusedPort t s
  | .gateSet t => Sys2Proof.Machine.execGateSet t s
  | .signalSet t => Sys2Proof.Machine.execSignalSet t s
  | .breakerSet t => Sys2Proof.Machine.execBreakerSet t s
  | .level t => Sys2Proof.Machine.execLevel t s
  | .tip t => Sys2Proof.Machine.execTip t s
  | .draw t => Sys2Proof.Machine.execDraw t s
  | .grizzlyClear t => Sys2Proof.Machine.execGrizzlyClear t s
  | .chuteMoisture t => Sys2Proof.Machine.execChuteMoisture t s
  | .gatePosition t => Sys2Proof.Machine.execGatePosition t s
  | .wagon t => Sys2Proof.Machine.execWagon t s
  | .signalState t => Sys2Proof.Machine.execSignalState t s
  | .breakerState t => Sys2Proof.Machine.execBreakerState t s
  | .noticePost t => Sys2Proof.Machine.execNoticePost t s
  | .noticeTaken t => Sys2Proof.Machine.execNoticeTaken t s
  | .lineSilenceExpiry order => Sys2Proof.Machine.execLineSilenceExpiry order s
  | .sampleStale p => Sys2Proof.Machine.execSampleStale p s
  | .holdExpiry a => Sys2Proof.Machine.execHoldExpiry a s
  | .deadlineExpiry a => Sys2Proof.Machine.execDeadlineExpiry a s
  | .unknownRequest t => Sys2Proof.Machine.execUnknownRequest t s
  | .readItem t => Sys2Proof.Machine.execReadItem t s
  | .tableRead t => Sys2Proof.Machine.execTableRead t s
  | .writeEntry t => Sys2Proof.Machine.execWriteEntry t s
  | .writeValid t => Sys2Proof.Machine.execWriteValid t s
  | .writePointField t => Sys2Proof.Machine.execWritePointField t s
  | .writeConfigured t => Sys2Proof.Machine.execWriteConfigured t s
  | .writeL t => Sys2Proof.Machine.execWriteL t s
  | .writeGrizzlyLimit t => Sys2Proof.Machine.execWriteGrizzlyLimit t s
  | .writeLineSilenceTime t => Sys2Proof.Machine.execWriteLineSilenceTime t s
  | .isolateRequest t => Sys2Proof.Machine.execIsolateRequest t s
  | .isolateConfirm t => Sys2Proof.Machine.execIsolateConfirm t s
  | .restore t => Sys2Proof.Machine.execRestore t s
  | .acknowledge t => Sys2Proof.Machine.execAcknowledge t s
  | .passReset t => Sys2Proof.Machine.execPassReset t s
  | .surveyLoad t => Sys2Proof.Machine.execSurveyLoad t s
  | .clearFlags t => Sys2Proof.Machine.execClearFlags t s
  | .timeSet t => Sys2Proof.Machine.execTimeSet t s
  | .deviceReset t => Sys2Proof.Machine.execDeviceReset t s
  | .ownStationOtherKind port t => Sys2Proof.Machine.execOwnStationOtherKind port t s
  | .discardWhileResetPending port t => Sys2Proof.Machine.execDiscardWhileResetPending port t s

end Sys2Proof.Machine
end

