-- ==== Sys2Proof/Machine/Idle.lean ====
section
/-! DEFINITION. What the block does while no command waits: one decisecond passes (DESIGN CHOICE, log entry 1). Every timer of the part
is a remaining duration; timers that have run out are taken first, one a step, without time passing. -/

namespace Sys2Proof.Machine

/-- A running remaining duration after one decisecond. -/
def tickDown (n : Nat) : Nat := n - 1

/-- The ISSUED entry's deadline after one decisecond (R141); a WAITING entry has none. -/
def ActionEntry.tick (e : ActionEntry) : ActionEntry :=
  match e.state with
  | .issued d sent t => { e with state := .issued (tickDown d) sent t }
  | .waiting => e

/-- A held entry's hold timer after one decisecond (R132). -/
def HeldEntry.tick (e : HeldEntry) : HeldEntry := { e with timer := tickDown e.timer }

/-- A pass's sample life timer after one decisecond (R61). -/
def Pass.tick (x : Pass) : Pass := { x with est := { x.est with life := x.est.life.map tickDown } }

/-- One decisecond passes: the time base counts (R174), and every running remaining duration falls by one. -/
def State.elapse (s : State) : State :=
  { s with
    passes := s.passes.map Pass.tick
    traffic :=
      { s.traffic with
        pool := s.traffic.pool.map HeldEntry.tick
        actions := s.traffic.actions.map ActionEntry.tick }
    silence := s.silence.map tickDown
    time := s.time + 1 }

/-- The deadline timer of the entry has run out (R141). -/
def ActionEntry.isDue (e : ActionEntry) : Bool :=
  match e.state with
  | .issued d _ _ => decide (d = 0)
  | .waiting => false

/-- The expiries of the timers that have run out: line silence (R16), sample lives (R61), hold timers (R132), deadline
timers (R141). -/
def dueExpiries (s : State) : List Instr :=
  (if s.silence = some 0 then [.lineSilenceExpiry (Config.silenceOrder s.draws)] else [])
    ++ ((allPasses.filter fun p => decide ((s.pass p).est.life = some 0)).map .sampleStale)
    ++ ((s.traffic.pool.filter fun e => decide (e.timer = 0)).map fun e => .holdExpiry e.actuator)
    ++ ((s.traffic.actions.filter ActionEntry.isDue).map fun e => .deadlineExpiry e.actuator)

/-- No command waits. Where timers have run out, one of their expiries is taken, the free value `Config.expiryChoice`
choosing among several (DESIGN CHOICE, log entry 5); otherwise one decisecond passes. -/
def State.idle (s : State) : Result :=
  match dueExpiries s with
  | [] => .next s.elapse
  | c :: cs =>
    exec (((c :: cs)[Config.expiryChoice s.draws % (cs.length + 1)]?).getD c) { s with draws := s.draws + 1 }

end Sys2Proof.Machine
end

