-- ==== Sys2Proof/Safety.lean ====
section
/-! DEFINITION. What the manual promises of every state the part can be in: the laws of its columns, estimates, ports,
notice list, Hold Pool and Action Queue, as predicates of a state. -/

namespace Sys2Proof.Machine

/-! ### Telegrams that arrive -/

/-- The port and the telegram of a row that is a telegram's arrival; rows that can only arrive at one port name it. -/
def arrival : Instr → Option (PortId × Telegram)
  | .powerOn | .lineFree _ | .lineSilenceExpiry _ | .sampleStale _ | .holdExpiry _ | .deadlineExpiry _ => none
  | .lineCheckFail port t | .invalidAddress port t | .relay port t | .broadcast port t
  | .ownStationOtherKind port t | .discardWhileResetPending port t => some (port, t)
  | .refusedPort t | .level t | .tip t | .draw t | .grizzlyClear t | .chuteMoisture t | .gatePosition t | .wagon t
  | .signalState t | .breakerState t | .noticePost t | .noticeTaken t => some (.field, t)
  | .gateSet t | .signalSet t | .breakerSet t | .unknownRequest t | .readItem t | .tableRead t | .writeEntry t
  | .writeValid t | .writePointField t | .writeConfigured t | .writeL t | .writeGrizzlyLimit t
  | .writeLineSilenceTime t | .isolateRequest t | .isolateConfirm t | .restore t | .acknowledge t | .passReset t
  | .surveyLoad t | .clearFlags t | .timeSet t | .deviceReset t => some (.control, t)

/-- R171: the table identifier, entry index and field selector that name a stored field. -/
def fieldCode : TableField → Nat × Nat × Nat
  | .point i sel => (1, i.val, match sel with
      | .valid => 0 | .station => 1 | .point => 2 | .role => 3 | .pass => 4 | .object => 5 | .mode => 6 | .scaleNum => 7
      | .scaleDen => 8 | .response => 9 | .tolerance => 10)
  | .device sel => (2, 0, match sel with
      | .ownStation => 0 | .noticeStation => 1 | .silenceTime => 2)
  | .noticeEnable c => (3, c.code, 0)
  | .noticePriority c => (3, c.code, 1)
  | .param p sel => (16 + p.val, 0, match sel with
      | .configured => 0 | .len => 1 | .area => 2 | .sensorOffset => 3 | .density w => 4 + w.code | .rounding => 8
      | .columnWeight => 9 | .sensorWeight => 10 | .divergenceLimit => 11 | .staleTime => 12 | .cushion => 13
      | .highFill => 14 | .hysteresis => 15 | .residue => 16 | .enableI => 17 | .enableO => 18 | .enableU => 19
      | .enableV => 20 | .enableG => 21)
  | .cell p r c => (32 + p.val, rowCode r, match c with
      | .empty => 0 | .low => 1 | .normal => 2 | .high => 3 | .full => 4 | .alert => 5)
  | .holdTime p r => (32 + p.val, rowCode r, 6)
  | .opening p w => (48 + p.val, 0, w.code)
  | .grizzly p t => (64 + p.val, 0, t.val)
where
  rowCode : Row → Nat
    | .gateOpen => 0 | .signalOn => 1 | .breakerStart => 2

/-! ### Columns (R32, R33, R35, R49, R50) -/

/-- R50's proviso: none of the four counters stands at its ceiling. -/
def Column.counting (c : Column) : Prop :=
  c.tipped < Config.totalCeiling ∧ c.drawn < Config.totalCeiling ∧ c.shortfall < Config.totalCeiling
    ∧ c.spill < Config.totalCeiling

/-- R50's balance, with the totals it subtracts moved to the other side. -/
def Column.balanced (c : Column) : Prop :=
  columnTotal c + accumTotal c + c.drawn + c.spill = c.base + c.tipped + c.shortfall

/-- R50: every pass's account balances while its counters count. -/
def AccountsBalance (s : State) : Prop := ∀ p, (s.pass p).column.counting → (s.pass p).column.balanced

/-- R32: the tonnages of a charge. -/
def Charge.sound (c : Charge) : Prop := 1 ≤ c.remaining ∧ c.remaining ≤ c.placed ∧ c.placed ≤ Config.tonnageCeiling

/-- R35: an accumulator holds at most 60000, and an empty one is Dry. -/
def Accumulator.sound (a : Accumulator) : Prop :=
  a.tonnage ≤ Config.tonnageCeiling ∧ (a.tonnage = 0 → a.wetness = .dry)

/-- R33: the numbers of the charges run on from one to the next, and the counter is one above the top charge's. -/
def numbersRun : List Charge → Half → Prop
  | [], _ => True
  | [c], n => n = c.number + 1
  | c :: d :: rest, n => d.number = c.number + 1 ∧ numbersRun (d :: rest) n

/-- R32, R33, R35: a pass column and its accumulators. -/
def Column.sound (c : Column) : Prop :=
  c.charges.length ≤ Config.columnCapacity ∧ (∀ x ∈ c.charges, x.sound) ∧ numbersRun c.charges c.counter
    ∧ ∀ t, (c.accums.get t).sound

def ColumnsSound (s : State) : Prop := ∀ p, (s.pass p).column.sound

/-! ### Estimates (R72, R75, R78) -/

/-- R72, R75: the stored heights lie in 0..L, and the band is EMPTY exactly at 0 and FULL exactly at L. R78: an
UNCONFIGURED pass stands at 0 and EMPTY. -/
def estimateSound (len : Nat) (x : Pass) : Prop :=
  0 < len ∧ x.est.h ≤ len ∧ x.est.hc ≤ len ∧ x.est.hs ≤ len
    ∧ (x.est.band = .empty ↔ x.est.h = 0) ∧ (x.est.band = .full ↔ x.est.h = len)
    ∧ (x.mode = .unconfigured → x.est.h = 0 ∧ x.est.hc = 0 ∧ x.est.hs = 0)

def EstimatesSound (s : State) : Prop := ∀ p, estimateSound (s.params p).len (s.pass p)

/-! ### Ports and notices (R10, R165) -/

/-- R10: each transmit queue holds at most 48 telegrams, and action telegrams stand in the Field Port queue alone. -/
def QueuesBounded (s : State) : Prop :=
  s.traffic.ctl.port.queue.length ≤ Config.txCapacity ∧ s.traffic.field.queue.length ≤ Config.txCapacity
    ∧ ∀ a, ∀ q ∈ s.traffic.ctl.port.queue, q.isActionOf a = false

/-- R164: RESTART and OVERRUN are the classes whose source is the device. -/
def NoticeClass.ofDevice : NoticeClass → Bool
  | .restart | .overrun => true
  | .band | .alert | .trip | .actionFail | .forced | .slot => false

/-- R164: the source and the class of a notice go together. -/
def sourceFits (src : NoticeSource) (cls : NoticeClass) : Prop := src = .device ↔ cls.ofDevice = true

/-- R164, R165: no two entries of the notice list have the same source and class, a count is 1 to 255, and an entry's
source is the one its class has. -/
def NoticesSound (s : State) : Prop :=
  (s.traffic.ctl.notices.map fun e => (e.source, e.cls)).Nodup
    ∧ ∀ e ∈ s.traffic.ctl.notices, (1 ≤ e.count ∧ e.count ≤ Config.countCeiling) ∧ sourceFits e.source e.cls

/-- R5: every telegram that stands in a queue, is on a line, or is kept by an ISSUED entry for a copy, passes the line
check. -/
def TelegramsChecked (s : State) : Prop :=
  (∀ q ∈ s.traffic.ctl.port.queue, checkHolds q.tel = true)
    ∧ (∀ q ∈ s.traffic.field.queue, checkHolds q.tel = true)
    ∧ (∀ x, s.traffic.ctl.port.sending = some x → checkHolds x.tel = true)
    ∧ (∀ x, s.traffic.field.sending = some x → checkHolds x.tel = true)
    ∧ ∀ e ∈ s.traffic.actions, ∀ d sent tel, e.state = .issued d sent tel → checkHolds tel = true

/-! ### Hold Pool and Action Queue (R10, R126, R135) -/

/-- R126: at most 16 entries, and never two for one actuator. -/
def PoolSound (s : State) : Prop :=
  s.traffic.pool.length ≤ Config.poolCapacity ∧ (s.traffic.pool.map HeldEntry.actuator).Nodup

/-- The line of an actuator: its entries in admission order (R135). -/
def lineOf (tr : Traffic) (a : Actuator) : List ActionEntry := tr.actions.filter fun e => decide (e.actuator = a)

/-- R135: at most 32 entries, at most 4 for any one actuator, at most one ISSUED for any actuator. -/
def ActionsBounded (tr : Traffic) : Prop :=
  tr.actions.length ≤ Config.actionCapacity
    ∧ ∀ a, (lineOf tr a).length ≤ Config.lineCapacity ∧ (tr.actions.filter (ActionEntry.isIssuedFor a)).length ≤ 1

/-- R10, R138: an actuator has at most one action telegram queued, and a queued action telegram is that of the
actuator's ISSUED entry, of the same direction, whose telegram standing is QUEUED. -/
def ActionTelegramsMatched (tr : Traffic) : Prop :=
  (∀ a, (tr.field.queue.filter (Queued.isActionOf a)).length ≤ 1)
    ∧ ∀ q ∈ tr.field.queue, ∀ a d, q.cls = .action a d →
        ∃ e ∈ tr.actions, e.actuator = a ∧ e.direction = d ∧ ∃ n, e.state = .issued n false q.tel

def ActionsSound (s : State) : Prop := ActionsBounded s.traffic ∧ ActionTelegramsMatched s.traffic

/-! ### What stands behind the queues (R21, R23, R136, R147) -/

/-- R21: a valid entry has its key and routing fields, and an Object in its role's range. -/
def PointEntry.sound (e : PointEntry) : Prop := e.valid = true → isComplete e = true

/-- R21, R23: the valid entries are complete and do not clash. -/
def PointsSound (tb : Tables) : Prop :=
  (∀ i : Fin 128, (tb.points.get i).sound)
    ∧ ∀ i j : Fin 128, i ≠ j → (tb.points.get i).valid = true → (tb.points.get j).valid = true →
        pointsClash (tb.points.get i) (tb.points.get j) = false

/-- R126, R136: the command point of every entry of the Action Queue and of the Hold Pool is valid; a held command, and
a non-safe action, belongs to a pass in RUNNING or ALERT (R133, R147). -/
def EntriesBacked (s : State) : Prop :=
  (∀ e ∈ s.traffic.actions, hasCommandPoint s.tables e.actuator = true
      ∧ (e.direction = .nonSafe → (s.pass e.actuator.pass).mode.isLive = true))
    ∧ ∀ e ∈ s.traffic.pool, hasCommandPoint s.tables e.actuator = true ∧ (s.pass e.actuator.pass).mode.isLive = true

/-- R135: an actuator with any entry has exactly one ISSUED entry, the oldest of its line; the rest WAIT and are
non-safe. -/
def LinesOrdered (tr : Traffic) : Prop :=
  ∀ a, match lineOf tr a with
    | [] => True
    | e :: rest => e.isIssuedFor a = true ∧ ∀ x ∈ rest, x.state = .waiting ∧ x.direction = .nonSafe

/-! ### Pass states and alarm records (R150 to R152, R162) -/

/-- R151: the alert causes; the others are trip causes. -/
def Cause.isAlert : Cause → Bool
  | .overflow | .underflow | .invalid | .divergenceHigh | .divergenceLow | .inexact | .actionFail | .restart => true
  | .safeFail | .breakerUnderPermit | .mudRush | .gateMoved | .lineSilence => false

/-- R152: the level a pass state shows. -/
def levelOf : PassState → AlarmLevel
  | .alert => .alert
  | .tripped => .trip
  | .running | .isolated | .unconfigured => .quiet

/-- R152: the level follows the pass state; a raised record has a primary cause, which its secondary set does not hold;
an alert has alert causes alone; and the secondary set holds each code once. -/
def alarmSound (x : Pass) : Prop :=
  x.alarm.level = levelOf x.mode
    ∧ (x.alarm.level ≠ .quiet → ∃ c, x.alarm.primary = some c ∧ c ∉ x.alarm.secondary)
    ∧ (x.mode = .alert → (∀ c, x.alarm.primary = some c → c.isAlert = true) ∧ ∀ c ∈ x.alarm.secondary, c.isAlert = true)
    ∧ (x.alarm.secondary.map Cause.code).Pairwise (· < ·)

def AlarmsSound (s : State) : Prop := ∀ p, alarmSound (s.pass p)

/-- R150, R162: a pass is UNCONFIGURED exactly while its Configured setting is no, and ISOLATED exactly while it is
configured with its isolation mark set. -/
def PassStatesStored (s : State) : Prop :=
  ∀ p, ((s.pass p).mode = .unconfigured ↔ (s.params p).configured = false)
    ∧ ((s.pass p).mode = .isolated ↔ (s.params p).configured = true ∧ s.tables.marks.get p = true)

/-- The whole of what stands behind the queues. -/
def CommandsSound (s : State) : Prop :=
  PointsSound s.tables ∧ EntriesBacked s ∧ ActionsBounded s.traffic ∧ LinesOrdered s.traffic

/-! ### What a command may touch -/

/-- The Action Queue's entries of pass `q`, in admission order, with every telegram standing read as SENT. -/
def linesOf (tr : Traffic) (q : PassId) : List ActionEntry :=
  (tr.actions.filter fun e => decide (e.actuator.pass = q)).map (ActionEntry.withStanding true)

/-- What an event of pass `p` leaves of every other pass: its record, its gates' histories and its held commands stay
as they were, and its Action Queue entries stay but for those R146 removes to make room. -/
def elsewhere (p : PassId) (s u : State) : Prop :=
  ∀ q, q ≠ p →
    u.pass q = s.pass q ∧ u.traffic.history.get q = s.traffic.history.get q
      ∧ u.traffic.pool.filter (HeldEntry.isOf q) = s.traffic.pool.filter (HeldEntry.isOf q)
      ∧ (linesOf u.traffic q).Sublist (linesOf s.traffic q)

/-- A report of pass `p` touches nothing but that pass and the traffic. -/
def reportFrame (p : PassId) (s u : State) : Prop :=
  u = { s with passes := u.passes, traffic := u.traffic } ∧ elsewhere p s u

/-- R70, R72: the estimate after one evaluation of the pass. `o` and `u` come with a column change (R44). -/
def Pass.evaluated (pr : PassParams) (o u : Bool) (x : Pass) : Estimate :=
  let f := findings pr x o u
  if enabledCauses pr f.causes = [] then (x.est.record f.causes).store pr f else x.est.record f.causes

/-- R153: the pass state after one evaluation: a RUNNING pass with an enabled condition enters ALERT. -/
def Pass.stateEvaluated (pr : PassParams) (o u : Bool) (x : Pass) : PassState :=
  if x.mode = .running ∧ enabledCauses pr (findings pr x o u).causes ≠ [] then .alert else x.mode

/-- R152, R153: the pass record after an alert cause handed at `now`. -/
def Pass.withAlert (c : Cause) (now : Word) (tel : Option Interrupted) (x : Pass) : Pass :=
  match x.mode with
  | .running =>
    { x with
      mode := .alert
      alarm :=
        { level := .alert, primary := some c, secondary := [], raisedAt := now, h := x.est.h, hc := x.est.hc
          hs := x.est.hs, telegram := tel } }
  | .alert | .tripped => { x with alarm := x.alarm.join c }
  | .isolated | .unconfigured => x

/-- R152, R154: the pass record after a trip cause handed at `now`. -/
def Pass.withTrip (c : Cause) (now : Word) (tel : Option Interrupted) (x : Pass) : Pass :=
  let tripped (secondary : List Cause) : Pass :=
    { x with
      mode := .tripped
      alarm :=
        { level := .trip, primary := some c, secondary := secondary, raisedAt := now, h := x.est.h, hc := x.est.hc
          hs := x.est.hs, telegram := tel } }
  match x.mode with
  | .running => tripped []
  | .alert =>
    tripped
      (match x.alarm.primary with
        | some old => insertCause old x.alarm.secondary
        | none => x.alarm.secondary)
  | .tripped => { x with alarm := x.alarm.join c }
  | .isolated | .unconfigured => x

/-- R72, R73, R153: the pass record after one evaluation made at `now`. -/
def Pass.afterEvaluation (pr : PassParams) (o u : Bool) (now : Word) (tel : Option Interrupted) (x : Pass) : Pass :=
  (enabledCauses pr (findings pr x o u).causes).foldl (fun y c => y.withAlert c now tel)
    { x with est := x.evaluated pr o u }

/-- R72, R73, R76: `s` after one evaluation of pass `p`, whose record is `x`: a changed band raises BAND and is then reported
with the standing check (log entry 14); the enabled conditions are handed one after another. -/
def afterEvaluating (p : PassId) (x : Pass) (o u : Bool) (tel : Option Interrupted) (s : State) : State :=
  let causes := enabledCauses (s.params p) (findings (s.params p) x o u).causes
  let est := x.evaluated (s.params p) o u
  let noted : State := { s with passes := s.passes.set p { x with est := est } }
  if causes ≠ [] then causes.foldl (fun v c => v.alertCause p c tel) noted
  else if est.band = x.est.band then noted
  else (noted.raise (.pass p) .band est.band.code).reportStandingChange p

/-- R88, R89, R101: where the actuator has a command point its safe command is originated and FORCED raised. -/
def afterForcing (a : Actuator) (r : Reason) (s : State) : State :=
  if hasCommandPoint s.tables a then
    State.raise (.pass a.pass) .forced r.code { s with traffic := s.traffic.takeSafe s.view a none noCarried }
  else s

/-- R45, R87, R88: what a tip-point record does where its accumulator left `before`: a crossing to FULL with a permit shown
forces the signal off, and a crossing either way is reported. -/
def afterStanding (p : PassId) (before : Column) (s : State) (t : TipId) : State :=
  let x := s.pass p
  let r := x.tips.get t
  let tonnage := (x.column.accums.get t).tonnage
  let now := standingOf ((s.tables.grizzly.get p).get t) tonnage
  if tonnage = (before.accums.get t).tonnage ∨ now = r.standing then s
  else
    let crossed : State := { s with passes := s.passes.set p { x with tips := x.tips.set t { r with standing := now } } }
    let forced := if now = .full ∧ (r.signal = .isOn ∨ hasNonSafe s.traffic (.signal p t) = true) then
        afterForcing (.signal p t) .grizzly crossed
      else crossed
    forced.reportChange p

/-- R44, R45: `s` after a column change that left the record of pass `p` at `x`: one evaluation, then the head wetness
change, then the accumulators in tip-point order (log entry 13). -/
def afterColumnChange (p : PassId) (x : Pass) (before : Column) (o u : Bool) (tel : Option Interrupted) (s : State) : State :=
  let evaluated := afterEvaluating p x o u tel s
  let told := if headWetness x.column = headWetness before then evaluated else evaluated.reportStandingChange p
  ([0, 1, 2] : List TipId).foldl (afterStanding p before) told

/-- R30, R151: what a cause carries of the report it was found in. -/
def carriedReport (t : Telegram) : Option Interrupted :=
  some { src := t.src, kind := t.kind, point := t.point, tag := t.tag, value := t.value }

/-- R87: the tip-point record after its accumulator went from `before` to `after`. -/
def TipRecord.following (limit before after : Nat) (r : TipRecord) : TipRecord :=
  { r with standing := if after = before then r.standing else standingOf limit after }

/-- R44, R45, R152: the record of a pass after a column change to `x` (whose column is the new one) and its evaluation at
`now`; `y` is the record reached, `before` the old column. -/
def columnChanged (tb : Tables) (p : PassId) (before : Column) (o u : Bool) (now : Word) (tel : Option Interrupted)
    (x y : Pass) : Prop :=
  y = { x with
        est := x.evaluated (tb.params.get p) o u
        mode := x.stateEvaluated (tb.params.get p) o u
        alarm := (x.afterEvaluation (tb.params.get p) o u now tel).alarm
        tips := y.tips }
    ∧ ∀ t, y.tips.get t =
        (x.tips.get t).following ((tb.grizzly.get p).get t) (before.accums.get t).tonnage (x.column.accums.get t).tonnage

/-- The pass state after a trip cause, where `tripped` says that one was found (R154). -/
def PassState.afterTrip (m : PassState) (tripped : Prop) [Decidable tripped] : PassState :=
  if tripped ∧ m.isLive = true then .tripped else m

/-- The row of the opcode table that takes a command for an actuator. -/
def commandRow (a : Actuator) (t : Telegram) : Instr :=
  match a with
  | .gate _ _ => .gateSet t
  | .signal _ _ => .signalSet t
  | .breaker _ _ => .breakerSet t

/-- R116: the preconditions of the actuator's non-safe operation are met. -/
def preconditionsMet (v : View) (tr : Traffic) : Actuator → Prop
  | .gate p c => ((v.passes.get p).chutes.get c).wagon = .present ∧ ∀ n, (v.passes.get p).slot = some n → n.kind ≠ .stopDraw
  | .signal p t =>
    ((v.passes.get p).tips.get t).breaker = .parked ∧ hasNonSafe tr (.breaker p t) = false
      ∧ ((v.passes.get p).tips.get t).standing = .below
  | .breaker p t => ((v.passes.get p).tips.get t).signal = .isOff ∧ hasNonSafe tr (.signal p t) = false

/-- R118: a non-safe command with this value may be placed for the actuator as the pass stands: RUNNING or ALERT, no
REFUSE or HOLD in the table cell, and a gate opening within the table clamp and a positive opening limit. -/
def placeable (v : View) (a : Actuator) (value : Nat) : Prop :=
  (v.passes.get a.pass).mode.isLive = true ∧ interlockCell v a ≠ some .refuse ∧ interlockCell v a ≠ some .hold
    ∧ ∀ p c, a = .gate p c →
        0 < openingLimit v p ∧ value ≤ openingLimit v p ∧ value ≤ 100 ∧ ∀ n, interlockCell v a = some (.clamp n) → value ≤ n

/-- R137, R138: `taken` is the traffic `tr` after the non-safe command of `entry` joined the Action Queue: WAITING at the
back where its actuator has entries, otherwise ISSUED at once, its telegram placed. -/
def entryTaken (tb : Tables) (tr : Traffic) (entry : ActionEntry) (taken : Traffic) : Prop :=
  let a := entry.actuator
  (lineOf tr a ≠ [] → taken = { tr with actions := tr.actions ++ [entry] })
    ∧ (lineOf tr a = [] → ∀ cp, commandPoint tb a = some cp →
        let tel := actionTelegram tb.device.ownStation cp entry entry.value
        taken = Traffic.placeField tb { tel := tel, cls := .action a .nonSafe }
          { tr with
            actions := tr.actions ++ [{ entry with state := .issued (cp.response.getD 0) false tel }]
            history := noteIssue a .nonSafe tr.history })

/-- R4, R146: the source of an entry that leaves is answered; an originated entry receives no answer. -/
def entryAnswered (tb : Tables) (e : ActionEntry) (ans : Answer) (reason : Reason) (value : Nat) (tr : Traffic) : Traffic :=
  match e.origin with
  | .station r => tr.answer tb r ans reason value
  | .originated _ => tr

/-- R140, R143, R144: the ISSUED entry of the actuator is gone, and its telegram with it where it was still queued. -/
def withoutIssued (a : Actuator) (tr : Traffic) : Traffic :=
  { tr with
    actions := tr.actions.eraseP (ActionEntry.isIssuedFor a)
    field := { tr.field with queue := tr.field.queue.filter fun q => !q.isActionOf a } }

/-- R143, R144: the WAITING entries of the actuator are gone, each answered CANCELLED in admission order. -/
def withoutWaiting (tb : Tables) (a : Actuator) (reason : Reason) (tr : Traffic) : Traffic :=
  (tr.actions.filter fun e => e.isWaitingFor a).foldl (fun x e => entryAnswered tb e .cancelled reason 0 x)
    { tr with actions := tr.actions.filter fun e => !e.isWaitingFor a }

/-- R133: the held commands of pass `p` are gone, each answered REFUSED with TRIP and Value 0, in arrival order. -/
def withoutHeld (tb : Tables) (p : PassId) (tr : Traffic) : Traffic :=
  (tr.pool.filter fun e => decide (e.actuator.pass = p)).foldl (fun x e => x.answer tb e.requester .refused .trip 0)
    { tr with pool := tr.pool.filter fun e => !decide (e.actuator.pass = p) }

/-- R155: `s` after pass `p`, RUNNING or ALERT, entered TRIPPED: the record; the safe commands of the actuators that have a
command point, signals, gates, breakers; the purge; the TRIP notice; the report. -/
def afterTripping (p : PassId) (c : Cause) (tel : Option Interrupted) (s : State) : State :=
  let recorded : State := { s with passes := s.passes.set p ((s.pass p).withTrip c s.time tel) }
  let order : List Actuator :=
    [.signal p 0, .signal p 1, .signal p 2, .gate p 0, .gate p 1, .breaker p 0, .breaker p 1, .breaker p 2]
  let commanded := order.foldl
    (fun tr a => if hasCommandPoint s.tables a then tr.takeSafe recorded.view a none noCarried else tr) s.traffic
  State.reportChange p
    (State.raise (.pass p) .trip c.code { recorded with traffic := withoutHeld s.tables p commanded })

/-- R143: `s` after the ISSUED entry `e` failed. -/
def afterFailure (e : ActionEntry) (tel : Option Interrupted) (s : State) : State :=
  let a := e.actuator
  let operation : Nat :=
    match a with
    | .gate _ _ => if e.direction = .nonSafe then 1 else 2
    | .signal _ _ => if e.direction = .nonSafe then 3 else 4
    | .breaker _ _ => if e.direction = .nonSafe then 5 else 6
  let dropped := withoutWaiting s.tables a .predecessor (withoutIssued a s.traffic)
  let noticed := State.raise (.pass a.pass) .actionFail (10 * operation + a.object.val) { s with traffic := dropped }
  match e.direction with
  | .nonSafe =>
    let safed := if hasCommandPoint s.tables a then
        { noticed with traffic := noticed.traffic.takeSafe noticed.view a none noCarried }
      else noticed
    safed.alertCause a.pass .actionFail tel
  | .safe => noticed.tripCause a.pass .safeFail tel

/-- R139: the report has reached the Action Queue as a confirmation candidate of the actuator. -/
def afterCandidate (a : Actuator) (s : State) : State := { s with traffic := s.traffic.confirm s.view a }

/-- R144, R147: the actuator is ordered safe: its line is one ISSUED safe entry with nothing behind it. -/
def orderedSafe (tr : Traffic) (a : Actuator) : Prop :=
  ∃ e, lineOf tr a = [e] ∧ e.isIssuedFor a = true ∧ e.direction = .safe

/-- R165: between `c` and `c'` a notice was raised whose latest detail is `detail`: unless its class is disabled, an entry of
the source and class with that detail waits in the list, its count above any it had. On a line that was idle with nothing
to notify it may have been chosen instead (R13, R166). -/
def announced (tb : Tables) (src : NoticeSource) (cls : NoticeClass) (detail : Nat) (c c' : ControlSide) : Prop :=
  (tb.notices.get cls).enabled = true →
    (∀ x, c.port.sending = some x →
      ∃ e ∈ c'.notices, e.source = src ∧ e.cls = cls ∧ e.detail = detail
        ∧ ∀ old ∈ c.notices, old.source = src → old.cls = cls → old.count < e.count ∨ e.count = Config.countCeiling)
    ∧ (c.port.sending = none → c.notices = [] →
        ∃ e : NoticeEntry, e.source = src ∧ e.cls = cls ∧ e.detail = detail
          ∧ (e ∈ c'.notices ∨ ∃ x, c'.port.sending = some x ∧ x.tel = noticeTelegram tb.device e))

/-- R124: the actuators that a standing check of pass `p` orders safe, in its order, each with the reason of its FORCED
notice: those with a command point that are engaged and meet a REFUSE cell, or for a gate an opening limit of 0. -/
def forcedBy (v : View) (tr : Traffic) (p : PassId) : List (Actuator × Reason) :=
  let x := v.passes.get p
  let engaged (a : Actuator) (confirmed : Bool) : Bool :=
    hasCommandPoint v.tables a && (confirmed || hasIssued tr a .nonSafe)
  let refused (a : Actuator) : Bool := decide (interlockCell v a = some .refuse)
  let gates := ([0, 1] : List ChuteId).filterMap fun c =>
    let a := Actuator.gate p c
    if engaged a (openAboveTolerance v p c) then
      if refused a then some (a, Reason.table) else if openingLimit v p = 0 then some (a, .wet) else none
    else none
  let signals := ([0, 1, 2] : List TipId).filterMap fun t =>
    let a := Actuator.signal p t
    if engaged a (decide ((x.tips.get t).signal = .isOn)) && refused a then some (a, Reason.table) else none
  let breakers := ([0, 1, 2] : List TipId).filterMap fun t =>
    let a := Actuator.breaker p t
    if engaged a (decide ((x.tips.get t).breaker = .working)) && refused a then some (a, Reason.table) else none
  gates ++ signals ++ breakers

/-! ### Start-up (R176) -/

/-- R176 step 4: the actuators of the configured passes that have a command point, in the order of start-up. -/
def startActuators (tb : Tables) : List Actuator :=
  ([0, 1, 2, 3] : List PassId).flatMap fun p =>
    let order : List Actuator :=
      [.signal p 0, .signal p 1, .signal p 2, .gate p 0, .gate p 1, .breaker p 0, .breaker p 1, .breaker p 2]
    if (tb.params.get p).configured then order.filter (hasCommandPoint tb) else []

/-- R136, R138, R144: the action telegram of the safe command that start-up originates for `a` with tag `tag`. -/
def startTelegram (tb : Tables) (tag : Nat) (a : Actuator) : Telegram :=
  withCheck
    { dest := ((commandPoint tb a).bind PointEntry.station).getD 0, src := tb.device.ownStation, kind := 1,
      point := ((commandPoint tb a).bind PointEntry.point).getD 0, tag := BitVec.ofNat 8 tag, qual := 0, ann := 0,
      table := 0, value := 0, ext := 0, check := 0 }

/-- R176 step 4: its entry. The first telegram placed finds the line idle and is chosen at once (R13). -/
def startEntry (tb : Tables) (tag : Nat) (a : Actuator) : ActionEntry :=
  { actuator := a, direction := .safe, value := 0, origin := .originated (BitVec.ofNat 8 tag), carried := noCarried
    state := .issued (((commandPoint tb a).bind PointEntry.response).getD 0) (decide (tag = 0)) (startTelegram tb tag a) }

/-- R175, R176: the state `u` is `s` started up, as far as everything but the traffic goes. -/
def startedUp (cause : ResetCause) (s u : State) : Prop :=
  u = { s with
        passes := u.passes
        traffic := u.traffic
        silence := startedSilence s.tables.device.silenceTime
        time := 0
        pendingIsolation := none
        bar := false
        resetCause := cause
        resetPending := false }
    ∧ ∀ p, u.pass p = restartedPass (s.params p).configured (s.tables.marks.get p)

end Sys2Proof.Machine
end

