-- ==== Sys2Proof/Certificates/Slice0/Obligations.lean ====
section
/-! DEFINITION. The statements about the block, chapter by chapter: what a command does, what it leaves alone, and what
every step keeps. A statement that rests on a choice of the model names its log entry. -/

section Statements

open Sys2Proof Sys2Proof.Machine

/-! ### The machine -/

/-- A step takes the command at the front of the queue and runs it on the state with the queue's rest. -/
def Obligations.StepRunsFront : Prop :=
  ∀ (c : Instr) (rest : List Instr) (s : State), s.pending = c :: rest → step s = exec c { s with pending := rest }

/-- The MODEL's clock (log entries 1 and 5): with no command waiting and no timer run out, one decisecond passes (the
time base counts up, R174, and each running remaining duration falls by one); where timers have run out, the expiry of
one of them is taken, whichever the free value names, and no time passes. A timer has run out when its remaining duration is 0. -/
def Obligations.IdleLetsTimePass : Prop :=
  ∀ s : State, s.pending = [] →
    (dueExpiries s = [] →
      step s = .next
        { s with
          passes := s.passes.map fun x => { x with est := { x.est with life := x.est.life.map fun n => n - 1 } }
          traffic :=
            { s.traffic with
              pool := s.traffic.pool.map fun e => { e with timer := e.timer - 1 }
              actions := s.traffic.actions.map fun e =>
                { e with state := match e.state with
                    | .issued d sent tel => .issued (d - 1) sent tel
                    | .waiting => .waiting } }
          silence := s.silence.map fun n => n - 1
          time := s.time + 1 })
    ∧ (dueExpiries s ≠ [] → ∃ c ∈ dueExpiries s, step s = exec c { s with draws := s.draws + 1 })
    ∧ ∀ c, c ∈ dueExpiries s ↔
        c = .lineSilenceExpiry (Config.silenceOrder s.draws) ∧ s.silence = some 0
          ∨ (∃ p, c = .sampleStale p ∧ (s.pass p).est.life = some 0)
          ∨ (∃ e ∈ s.traffic.pool, c = .holdExpiry e.actuator ∧ e.timer = 0)
          ∨ ∃ e ∈ s.traffic.actions, c = .deadlineExpiry e.actuator ∧ ∃ sent tel, e.state = .issued 0 sent tel

/-- `State.reset` is what start-up makes of a part with the factory tables, whatever it held before (R172, R176; that the
delivered part is shown after its start-up is the model's choice, log entry 7). R20, R41, R56, R79, R105, R111, R150, R164, R172:
the factory tables. R17, R53, R59, R95, R126, R152, R165, R173 to R175: what `State.reset` holds beside them: every pass
UNCONFIGURED and cleared, as StartUpClears gives it, and the NTC of the RESTART notice on the Control Port line (log entry 8). -/
def Obligations.DeliveredPartIsStarted : Prop :=
  (∀ s : State, s.tables = factoryTables →
    exec .powerOn s = .next { State.reset with draws := s.draws, pending := s.pending })
  ∧ (let unwritten : PointEntry :=
      { valid := false, station := none, point := none, role := none, pass := none, object := none, mode := none
        scaleNum := none, scaleDen := none, response := none, tolerance := none }
    let on (p : Priority) : NoticeControl := { enabled := true, priority := p }
    let params : PassParams :=
      { configured := false, len := 1000, area := 1257, sensorOffset := 20, density := ⟨200, 210, 225, 240⟩
        rounding := .nearest, columnWeight := 4, sensorWeight := 12, divergenceLimit := 50, staleTime := 300, cushion := 100
        highFill := 100, hysteresis := 10, residue := 5, enableI := false, enableO := true, enableU := true, enableV := true
        enableG := true }
    let interlock : InterlockTable :=
      { gateOpen := ⟨.refuse, .clamp 30, .pass, .pass, .pass, .hold, 600⟩
        signalOn := ⟨.pass, .pass, .pass, .hold, .refuse, .hold, 1200⟩
        breakerStart := ⟨.pass, .pass, .pass, .pass, .pass, .hold, 600⟩ }
    factoryTables.device = { ownStation := 1, noticeStation := 2, silenceTime := 100 }
    ∧ factoryTables.notices =
        { band := on .low, alert := on .high, trip := on .high, actionFail := on .high, forced := on .low, slot := on .low
          restart := on .high, overrun := on .low }
    ∧ (∀ i, factoryTables.points.get i = unwritten)
    ∧ ∀ p, factoryTables.params.get p = params ∧ factoryTables.interlock.get p = interlock
        ∧ factoryTables.openings.get p = ⟨100, 100, 50, 0⟩ ∧ factoryTables.grizzly.get p = ⟨3000, 3000, 3000⟩
        ∧ factoryTables.marks.get p = false)
  ∧ State.reset =
      { tables := factoryTables
        passes := ⟨clearedPass .unconfigured, clearedPass .unconfigured, clearedPass .unconfigured, clearedPass .unconfigured⟩
        traffic :=
          { ctl :=
              { port :=
                  { queue := [], overrun := false
                    sending := some
                      { tel := noticeTelegram factoryTables.device
                          { source := .device, cls := .restart, priority := .high, count := 1, detail := 1 }
                        endsInReset := false } }
                notices := [] }
            field := { queue := [], overrun := false, sending := none }
            pool := [], actions := [], tagCounter := 0
            history :=
              let gates : Duo GateHistory := ⟨⟨.unset, .unset⟩, ⟨.unset, .unset⟩⟩
              ⟨gates, gates, gates, gates⟩ }
        silence := some 100, time := 0, pendingIsolation := none, bar := false, resetCause := .powerOn, resetPending := false
        draws := 0, pending := [] }

/-- The state after reset meets every invariant that the steps are said to keep below. -/
def Obligations.ResetMeetsInvariants : Prop :=
  AccountsBalance State.reset ∧ ColumnsSound State.reset ∧ EstimatesSound State.reset ∧ QueuesBounded State.reset
    ∧ NoticesSound State.reset ∧ PoolSound State.reset ∧ ActionsSound State.reset ∧ CommandsSound State.reset
    ∧ AlarmsSound State.reset ∧ PassStatesStored State.reset ∧ TelegramsChecked State.reset

/-- Every command runs in every state, and none of them touches the queue of waiting commands or draws a free value. -/
def Obligations.EveryCommandAnswers : Prop :=
  ∀ (c : Instr) (s : State), ∃ u, exec c s = .next u ∧ u.pending = s.pending ∧ u.draws = s.draws

/-! ### Receiving (R5 to R9, R17, R26, R28) -/

/-- What the Control Port does with a telegram that passes its check, with no DEVICE-RESET pending and a valid address
(R6, R7, R9, R26): by Destination, Kind and, for a CMD to another station, the one valid Point Table entry with its
(Destination, Point). R169, R171: the request that an MRQ to the own station names, by its Point and, for a WRITE-ENTRY, the
stored field that its Table, Extension and Qualifier name; and the pass that its Table names. -/
def Obligations.ControlPortSorts : Prop :=
  (∀ (t : Telegram) (s : State), PointsSound s.tables → checkHolds t = true → s.resetPending = false →
    addressValid t = true →
    (t.dest = 255 → fate .control t s = .broadcast)
    ∧ (t.dest ≠ 255 → t.dest = s.tables.device.ownStation →
        fate .control t s = if t.kind = 5 then .request (requestOf t) else .ownOther)
    ∧ (t.dest ≠ 255 → t.dest ≠ s.tables.device.ownStation →
        (t.kind ≠ 1 → fate .control t s = .relay)
        ∧ (t.kind = 1 →
            ((∀ i : Fin 128, (s.tables.points.get i).valid = true →
                ¬((s.tables.points.get i).station = some t.dest ∧ (s.tables.points.get i).point = some t.point)) →
              fate .control t s = .relay)
            ∧ ∀ (i : Fin 128) (r : Role) (p : PassId), (s.tables.points.get i).valid = true →
                (s.tables.points.get i).station = some t.dest → (s.tables.points.get i).point = some t.point →
                (s.tables.points.get i).role = some r → (s.tables.points.get i).pass = some p →
                (r.isCommand = false ∨ (s.pass p).mode = .unconfigured → fate .control t s = .relay)
                ∧ ∀ a : Actuator, a.commandRole = r → a.pass = p → (s.tables.points.get i).object = some a.object →
                    (s.pass p).mode ≠ .unconfigured → fate .control t s = .command a)))
  ∧ ∀ t : Telegram,
      (∀ f, tableField t = some f ↔ (t.table.toNat, t.ext.toNat, t.qual.toNat) = fieldCode f)
      ∧ (∀ p : PassId, requestPass t = some p ↔ t.table.toNat = p.val)
      ∧ requestOf t =
          match t.point.toNat with
          | 1 => if t.value = 1 then .tableRead (tableField t) else .readItem
          | 2 =>
            match tableField t with
            | some (.point i sel) => if sel = .valid then .writeValid i else .writePointField i sel
            | some (.param p sel) =>
              if sel = .configured then .writeConfigured p
              else if sel = .len then .writeL p
              else .writeEntry (some (.param p sel))
            | some (.grizzly p n) => .writeGrizzlyLimit p n
            | some (.device sel) =>
              if sel = .silenceTime then .writeLineSilenceTime else .writeEntry (some (.device sel))
            | other => .writeEntry other
          | 3 => .isolateRequest
          | 4 => .isolateConfirm
          | 5 => .restore
          | 6 => .acknowledge
          | 7 => .passReset
          | 8 => .surveyLoad
          | 9 => .clearFlags
          | 10 => .timeSet
          | 11 => .deviceReset
          | _ => .unknown

/-- What the Field Port does with a telegram that passes its check, with no DEVICE-RESET pending and a valid address
(R6, R8, R9, R28): by Destination, Kind and, for an RPT to another station, the one valid Point Table entry with its
(Source, Point). -/
def Obligations.FieldPortSorts : Prop :=
  ∀ (t : Telegram) (s : State), PointsSound s.tables → checkHolds t = true → s.resetPending = false →
    addressValid t = true →
    (t.dest = 255 → fate .field t s = .broadcast)
    ∧ (t.dest ≠ 255 → t.dest = s.tables.device.ownStation →
        fate .field t s = if t.kind = 5 then .refusedPort else .ownOther)
    ∧ (t.dest ≠ 255 → t.dest ≠ s.tables.device.ownStation →
        (t.kind ≠ 2 → fate .field t s = .relay)
        ∧ (t.kind = 2 →
            ((∀ i : Fin 128, (s.tables.points.get i).valid = true →
                ¬((s.tables.points.get i).station = some t.src ∧ (s.tables.points.get i).point = some t.point)) →
              fate .field t s = .relay)
            ∧ ∀ (i : Fin 128) (r : Role) (p : PassId), (s.tables.points.get i).valid = true →
                (s.tables.points.get i).station = some t.src → (s.tables.points.get i).point = some t.point →
                (s.tables.points.get i).role = some r → (s.tables.points.get i).pass = some p →
                (r.isCommand = true ∨ (s.pass p).mode = .unconfigured → fate .field t s = .relay)
                ∧ (r.isCommand = false → (s.pass p).mode ≠ .unconfigured →
                    fate .field t s = .report
                      { entry := s.tables.points.get i, role := r, pass := p
                        object := (s.tables.points.get i).object.getD 0 })))

/-- R5, R17: a telegram whose check does not match, and every telegram that arrives while a DEVICE-RESET is pending,
changes nothing at all, the line-silence timer included. The rows LINE_CHECK_FAIL and DISCARD_WHILE_RESET_PENDING are
these two cases; the same holds of an arrival named by any other row. R1, R5: the check, over bytes 0 to 13, each taken most
significant bit first: generator 0x1021, the register starting at 0xFFFF, its final value used as it is. -/
def Obligations.DiscardsChangeNothing : Prop :=
  (∀ t : Telegram,
    let bytes : List Byte :=
      [t.dest, t.src, t.kind, t.point, t.tag, t.qual, t.ann, t.table, t.value.extractLsb' 24 8, t.value.extractLsb' 16 8,
        t.value.extractLsb' 8 8, t.value.extractLsb' 0 8, t.ext.extractLsb' 8 8, t.ext.extractLsb' 0 8]
    let bits : List Bool := bytes.flatMap fun b => (List.range 8).map fun i => b.getMsbD i
    let shift (register : Half) (bit : Bool) : Half :=
      (register <<< 1) ^^^ if (register.msb ^^ bit) = true then 0x1021#16 else 0#16
    (checkHolds t = true ↔ bits.foldl shift 0xFFFF#16 = t.check) ∧ withCheck t = { t with check := bits.foldl shift 0xFFFF#16 })
  ∧ (∀ (port : PortId) (t : Telegram) (s : State), checkHolds t = false → exec (.lineCheckFail port t) s = .next s)
    ∧ (∀ (port : PortId) (t : Telegram) (s : State), checkHolds t = true → s.resetPending = true →
        exec (.discardWhileResetPending port t) s = .next s)
    ∧ ∀ (c : Instr) (port : PortId) (t : Telegram) (s : State), arrival c = some (port, t) →
        checkHolds t = false ∨ s.resetPending = true → exec c s = .next s

/-- R6: a telegram with an invalid address is discarded; on the Control Port it still starts the line-silence timer
anew, and nothing else changes. -/
def Obligations.InvalidAddressIsDiscarded : Prop :=
  (∀ t : Telegram,
    addressValid t = true ↔ t.dest ≠ 0 ∧ t.dest ≠ 254 ∧ t.src ≠ 0 ∧ t.src ≠ 254 ∧ t.src ≠ 255)
  ∧ ∀ (port : PortId) (t : Telegram) (s : State), checkHolds t = true → s.resetPending = false →
    t.dest = 0 ∨ t.dest = 254 ∨ t.src = 0 ∨ t.src = 254 ∨ t.src = 255 →
    exec (.invalidAddress port t) s = .next
      (match port with
        | .control => { s with silence := startedSilence s.tables.device.silenceTime }
        | .field => s)

/-- R7, R8: the rows of the telegrams that go no further than the ports. To the own station with a Kind other than MRQ:
discarded. An MRQ at the Field Port: answered there with status 6, REFUSED-PORT, and not carried out. To another
station, relayed: placed unchanged, as a relayed telegram, in the other port's queue. On the Control Port each starts the
line-silence timer anew (R16). Nothing else changes. -/
def Obligations.PortsAnswerAndRelay : Prop :=
  (∀ s : State, heard .field s = s
    ∧ heard .control s =
        { s with silence := if s.tables.device.silenceTime = 0 then none else some s.tables.device.silenceTime })
    ∧ (∀ (port : PortId) (t : Telegram) (s : State), fate port t s = .ownOther →
      exec (.ownStationOtherKind port t) s = .next (heard port s))
    ∧ (∀ (t : Telegram) (s : State), fate .field t s = .refusedPort →
        exec (.refusedPort t) s = .next
          { s with
            traffic := s.traffic.placeField s.tables
              { tel := withCheck
                  { dest := t.src, src := s.tables.device.ownStation, kind := 6, point := t.point, tag := t.tag
                    qual := 6, ann := 0, table := t.table, value := 0, ext := 0, check := 0 }
                cls := .refusedPort } })
    ∧ (∀ (t : Telegram) (s : State), fate .control t s = .relay →
        exec (.relay .control t) s = .next
          { s with
            silence := startedSilence s.tables.device.silenceTime
            traffic := s.traffic.placeField s.tables { tel := t, cls := .relayed } })
    ∧ ∀ (t : Telegram) (s : State), fate .field t s = .relay →
        exec (.relay .field t) s = .next
          { s with traffic := s.traffic.placeControl s.tables { tel := t, cls := .relayed } }

/-- R9: a broadcast is relayed untouched to the other port's queue and not classified; an MRQ with request code 10 on
the Control Port also sets the time base, without a reply, and no other broadcast is taken. -/
def Obligations.BroadcastIsRelayed : Prop :=
  ∀ (t : Telegram) (s : State), checkHolds t = true → s.resetPending = false → addressValid t = true → t.dest = 255 →
    exec (.broadcast .control t) s = .next
        { s with
          silence := startedSilence s.tables.device.silenceTime
          traffic := s.traffic.placeField s.tables { tel := t, cls := .relayed }
          time := if t.kind = 5 ∧ t.point = 10 then t.value else s.time }
      ∧ exec (.broadcast .field t) s = .next
        { s with traffic := s.traffic.placeControl s.tables { tel := t, cls := .relayed } }

/-! ### The transmit queues and the arbiters (R10 to R15) -/

/-- R10, R13: a telegram placed in a queue with room joins at the back while the line is busy; on an idle line with
nothing else to send it is chosen at once, and an action telegram's standing becomes SENT. R11, R12: what becomes of a
telegram placed in a queue that holds 48, and of the overrun flag (`true`: set); each event that sets the flag raises an
OVERRUN notice of the device with the port as detail, whether or not the flag was set. R165: what a raise does: nothing
where the class is disabled; 1 more on the count, up to 255, and the latest detail where an entry of the source and class
waits; otherwise a new entry at the back of the list. -/
def Obligations.PlacingInAQueue : Prop :=
  (∀ (tb : Tables) (q : Queued) (tr : Traffic),
    (tr.field.queue.length < 48 →
      (∀ x, tr.field.sending = some x →
        tr.placeField tb q = { tr with field := { tr.field with queue := tr.field.queue ++ [q] } })
      ∧ (tr.field.sending = none → tr.field.queue = [] →
          tr.placeField tb q =
            { tr with
              field := { tr.field with sending := some { tel := q.tel, endsInReset := false } }
              actions := noteSent q tr.actions }))
    ∧ (tr.ctl.port.queue.length < 48 →
        (∀ x, tr.ctl.port.sending = some x →
          tr.placeControl tb q =
            { tr with ctl := { tr.ctl with port := { tr.ctl.port with queue := tr.ctl.port.queue ++ [q] } } })
        ∧ (tr.ctl.port.sending = none → tr.ctl.port.queue = [] → tr.ctl.notices = [] →
            q.isAnswer = true ∨ q.isRelayed = true →
            tr.placeControl tb q =
              { tr with
                ctl := { tr.ctl with
                  port := { tr.ctl.port with sending := some { tel := q.tel, endsInReset := q.endsInReset } } } })))
  ∧ (∀ q x : Queued,
      (q.isRelayed = true ↔ q.cls = .relayed) ∧ (q.isVerdict = true ↔ q.cls = .verdict)
      ∧ (q.isReply = true ↔ ∃ b, q.cls = .reply b) ∧ (q.isRefusedPort = true ↔ q.cls = .refusedPort)
      ∧ (q.isAnswer = true ↔ q.cls = .verdict ∨ (∃ b, q.cls = .reply b) ∨ q.cls = .refusedPort)
      ∧ (q.endsInReset = true ↔ q.cls = .reply true)
      ∧ (sameReport q x = true ↔
          x.cls = .relayed ∧ x.tel.kind = 2 ∧ x.tel.src = q.tel.src ∧ x.tel.point = q.tel.point))
  ∧ (∀ (q : Queued) (queue : List Queued), queue.length < 48 → enqueue q queue = (queue ++ [q], false))
  ∧ (∀ (q : Queued) (queue : List Queued), 48 ≤ queue.length →
    (q.cls = .relayed →
      (∀ pre x post, queue = pre ++ x :: post → q.tel.kind = 2 → sameReport q x = true →
          (∀ y ∈ pre, sameReport q y = false) → enqueue q queue = (pre ++ q :: post, false))
      ∧ (q.tel.kind ≠ 2 ∨ (∀ y ∈ queue, sameReport q y = false) → enqueue q queue = (queue, true)))
    ∧ (q.cls ≠ .relayed → ∀ pre x post, queue = pre ++ x :: post → (∀ y ∈ pre, y.isRelayed = false) →
        x.isRelayed = true → enqueue q queue = (pre ++ post ++ [q], true))
    ∧ ((∀ y ∈ queue, y.isRelayed = false) →
        (∀ b, q.cls = .verdict ∨ q.cls = .reply b →
          (∀ pre x post, queue = pre ++ x :: post → (∀ y ∈ pre, y.isVerdict = false) → x.isVerdict = true →
            enqueue q queue = (pre ++ post ++ [q], true))
          ∧ ((∀ y ∈ queue, y.isVerdict = false) → ∀ pre x post, queue = pre ++ x :: post →
              (∀ y ∈ pre, y.isReply = false) → x.isReply = true → enqueue q queue = (pre ++ post ++ [q], true)))
        ∧ (∀ a d, q.cls = .action a d ∨ q.cls = .refusedPort → ∀ pre x post, queue = pre ++ x :: post →
            (∀ y ∈ pre, y.isRefusedPort = false) → x.isRefusedPort = true →
            enqueue q queue = (pre ++ post ++ [q], true))))
  ∧ (∀ (tb : Tables) (q : Queued) (tr : Traffic),
      (tr.placeControl tb q).ctl.port.overrun = (tr.ctl.port.overrun || (enqueue q tr.ctl.port.queue).2)
      ∧ (tr.placeField tb q).field.overrun = (tr.field.overrun || (enqueue q tr.field.queue).2)
      ∧ (∀ x, tr.ctl.port.sending = some x →
          let r := enqueue q tr.ctl.port.queue
          let placed : Traffic := { tr with
            ctl := { tr.ctl with port := { tr.ctl.port with queue := r.1, overrun := tr.ctl.port.overrun || r.2 } } }
          tr.placeControl tb q = if r.2 = true then placed.raise tb .device .overrun 0 else placed)
      ∧ (∀ x, tr.field.sending = some x →
          let r := enqueue q tr.field.queue
          let placed : Traffic := { tr with field := { tr.field with queue := r.1, overrun := tr.field.overrun || r.2 } }
          tr.placeField tb q = if r.2 = true then placed.raise tb .device .overrun 1 else placed))
  ∧ ∀ (tb : Tables) (src : NoticeSource) (cls : NoticeClass) (detail : Nat) (tr : Traffic),
      let c := tr.ctl
      ((tb.notices.get cls).enabled = false → tr.raise tb src cls detail = tr)
      ∧ ((tb.notices.get cls).enabled = true →
          (∀ x ∈ c.notices, x.source = src → x.cls = cls →
            tr.raise tb src cls detail =
              { tr with
                ctl := { c with
                  notices := c.notices.map fun e =>
                    if e.source = src ∧ e.cls = cls then { e with count := min (e.count + 1) 255, detail := detail }
                    else e } })
          ∧ ((∀ x ∈ c.notices, ¬(x.source = src ∧ x.cls = cls)) →
              let made : NoticeEntry :=
                { source := src, cls := cls, priority := (tb.notices.get cls).priority, count := 1, detail := detail }
              (∀ x, c.port.sending = some x →
                tr.raise tb src cls detail = { tr with ctl := { c with notices := c.notices ++ [made] } })
              ∧ (c.port.sending = none → c.port.queue = [] → c.notices = [] →
                  tr.raise tb src cls detail =
                    { tr with
                      ctl := { c with
                        port := { c.port with
                          sending := some { tel := noticeTelegram tb.device made, endsInReset := false } } } })))

/-- R13, R14: at the Control Port's line free event its arbiter chooses the oldest Answer; else the earliest-made
high-priority notice; else the oldest relayed telegram; else the earliest-made low-priority notice; else the line stays
idle. The end of a transmission that is not the DONE of a DEVICE-RESET. Nothing else changes. R164, R166: the bytes of the NTC
telegram of a chosen notice. -/
def Obligations.ControlArbiterChooses : Prop :=
  (∀ (s : State) (x : Sending), s.traffic.ctl.port.sending = some x → x.endsInReset = false →
    let c := s.traffic.ctl
    let answers (c' : ControlSide) : Prop :=
      exec (.lineFree .control) s = .next { s with traffic := { s.traffic with ctl := c' } }
    (∀ pre q post, c.port.queue = pre ++ q :: post → (∀ y ∈ pre, y.isAnswer = false) → q.isAnswer = true →
        answers { c with
          port := { c.port with
            queue := pre ++ post, sending := some { tel := q.tel, endsInReset := q.endsInReset } } })
    ∧ ((∀ y ∈ c.port.queue, y.isAnswer = false) →
        (∀ pre e post, c.notices = pre ++ e :: post → (∀ y ∈ pre, y.priority = .low) → e.priority = .high →
            answers
              { port := { c.port with
                  sending := some { tel := noticeTelegram s.tables.device e, endsInReset := false } }
                notices := pre ++ post })
        ∧ ((∀ e ∈ c.notices, e.priority = .low) →
            (∀ pre q post, c.port.queue = pre ++ q :: post → (∀ y ∈ pre, y.isRelayed = false) → q.isRelayed = true →
                answers { c with
                  port := { c.port with queue := pre ++ post, sending := some { tel := q.tel, endsInReset := false } } })
            ∧ ((∀ y ∈ c.port.queue, y.isRelayed = false) →
                (∀ e rest, c.notices = e :: rest →
                    answers
                      { port := { c.port with
                          sending := some { tel := noticeTelegram s.tables.device e, endsInReset := false } }
                        notices := rest })
                ∧ (c.notices = [] → answers { c with port := { c.port with sending := none } })))))
  ∧ (∀ (dev : DeviceParams) (e : NoticeEntry),
      noticeTelegram dev e = withCheck
        { dest := dev.noticeStation, src := dev.ownStation, kind := 4, point := BitVec.ofNat 8 e.cls.code, tag := 0
          qual := match e.source with
            | .pass p => BitVec.ofNat 8 p.val
            | .device => 4
          ann := BitVec.ofNat 8 e.count, table := 0, value := BitVec.ofNat 32 e.detail, ext := 0, check := 0 })
  ∧ [NoticeClass.band, .alert, .trip, .actionFail, .forced, .slot, .restart, .overrun].map NoticeClass.code
      = [1, 2, 3, 4, 5, 6, 7, 8]

/-- R15: at the Field Port's line free event its arbiter chooses the oldest queued safe-direction action telegram if one
is queued, otherwise the oldest queued telegram of any class; an action telegram's standing becomes SENT (R138). With an
empty queue the line stays idle (R13). Nothing else changes. -/
def Obligations.FieldArbiterChooses : Prop :=
  (∀ (q : Queued) (l : List ActionEntry),
    (q.isSafeAction = true ↔ ∃ a, q.cls = .action a .safe)
    ∧ (∀ a d, q.cls = .action a d →
        noteSent q l = l.map fun e =>
          { e with state := match e.state with
              | .issued deadline sent tel => .issued deadline (sent || decide (e.actuator = a)) tel
              | .waiting => .waiting })
    ∧ ((∀ a d, q.cls ≠ .action a d) → noteSent q l = l))
  ∧ ∀ (s : State) (x : Sending), s.traffic.field.sending = some x →
    (∀ pre q post, s.traffic.field.queue = pre ++ q :: post →
        (∀ y ∈ pre, y.isSafeAction = false) ∧ q.isSafeAction = true
          ∨ pre = [] ∧ (∀ y ∈ s.traffic.field.queue, y.isSafeAction = false) →
        exec (.lineFree .field) s = .next
          { s with
            traffic := { s.traffic with
              field := { s.traffic.field with
                queue := pre ++ post, sending := some { tel := q.tel, endsInReset := false } }
              actions := noteSent q s.traffic.actions } })
    ∧ (s.traffic.field.queue = [] →
        exec (.lineFree .field) s = .next
          { s with traffic := { s.traffic with field := { s.traffic.field with sending := none } } })

/-! ### Start-up (R16, R17, R162, R175, R176) -/

/-- R17, R175, R176: at power-on, and at the line free event that ends the DONE of a DEVICE-RESET, every piece of
volatile state takes its start-up value: the stored tables and isolation marks are kept, each pass takes its state and
record from its Configured setting and its mark (R162): UNCONFIGURED or ISOLATED with the values after power-on, or ALERT with a
record of cause RESTART; the Hold Pool and the Control Port queue are empty, both overrun flags clear, and each gate's movement
reference is NONE, its last issued direction CLOSE where start-up issued its close, otherwise NONE (R95, R98). What start-up
places and notifies is said in StartUpOriginatesSafeCommands. Until then the timers go on: an expiry while a DEVICE-RESET is pending does what it does with none pending,
and where that has removed the DONE reply from a full queue (R11) the part starts up in the same event; that this is done
at the event's end is log entry 10. -/
def Obligations.StartUpClears : Prop :=
  (∀ s : State, exec .powerOn s = .next (s.startUp .powerOn))
    ∧ (∀ (s : State) (x : Sending), s.traffic.ctl.port.sending = some x → x.endsInReset = true →
        exec (.lineFree .control) s = .next (s.startUp .commanded))
    ∧ (∀ (c : Instr) (s v : State),
        (∃ order, c = .lineSilenceExpiry order) ∨ (∃ p, c = .sampleStale p) ∨ (∃ a, c = .holdExpiry a)
          ∨ (∃ a, c = .deadlineExpiry a) →
        s.resetPending = true → exec c { s with resetPending := false } = .next v →
        let replyStands := (∃ q ∈ v.traffic.ctl.port.queue, q.endsInReset = true)
          ∨ ∃ x, v.traffic.ctl.port.sending = some x ∧ x.endsInReset = true
        (replyStands → exec c s = .next { v with resetPending := true })
        ∧ (¬replyStands → exec c s = .next (s.startUp .commanded)))
    ∧ (∀ (cause : ResetCause) (s : State),
        let u := s.startUp cause
        startedUp cause s u ∧ u.traffic.pool = [] ∧ u.traffic.ctl.port.queue = [] ∧ u.traffic.ctl.port.overrun = false
          ∧ u.traffic.field.overrun = false
          ∧ ∀ (p : PassId) (c : ChuteId), (u.traffic.history.get p).get c =
              { reference := .unset
                lastIssued :=
                  if (s.params p).configured = true ∧ hasCommandPoint s.tables (.gate p c) = true then .closing else .unset })
    ∧ let nothing : Estimate :=
        { sample := none, life := none, h := 0, hc := 0, hs := 0, band := .empty
          causes := { i := false, o := false, u := false, v := false, g := none }
          sticky := { i := false, o := false, u := false, v := false, g := false } }
      let unheard : TipRecord := { signal := .unknown, breaker := .unknown, standing := .below }
      let unseen : ChuteRecord := { gate := none, wagon := .unknown, moisture := none }
      let bare : Accumulator := { tonnage := 0, wetness := .dry }
      let started (mode : PassState) (level : AlarmLevel) (primary : Option Cause) : Pass :=
        { column :=
            { charges := [], counter := 0, accums := ⟨bare, bare, bare⟩, base := 0, tipped := 0, drawn := 0, shortfall := 0
              spill := 0, surveyed := false }
          est := nothing, tips := ⟨unheard, unheard, unheard⟩, chutes := ⟨unseen, unseen⟩, slot := none, mode := mode
          alarm :=
            { level := level, primary := primary, secondary := [], raisedAt := 0, h := 0, hc := 0, hs := 0
              telegram := none } }
      (∀ mark, restartedPass false mark = started .unconfigured .quiet none)
      ∧ restartedPass true true = started .isolated .quiet none
      ∧ restartedPass true false = started .alert .alert (some .restart)
      ∧ (∀ mode, clearedPass mode = started mode .quiet none)
      ∧ clearedColumn = (started .running .quiet none).column ∧ noCauses = nothing.causes ∧ noFlags = nothing.sticky
      ∧ startedSilence 0 = none ∧ ∀ n, startedSilence (n + 1) = some (n + 1)

/-- R176 steps 4 and 5: start-up originates the safe command of every actuator of a configured pass that has a command
point, pass by pass, signals, gates, breakers, with tags from 0; the first stands on the line, the others in the Field
Port queue in that order, and every other actuator has no entry. With RESTART enabled, its notice is the first to go to
the control room, whatever its priority and before any ALERT notice of the same start-up: this order is the model's
reading of R13 (an idle line's arbiter chooses inside the event; DEDUCED, log entry 8), not the manual's words. R162, R176 step
6: with ALERT enabled, each pass that comes back in ALERT then raises its ALERT notice with detail 13, in pass order; and these
are all the notices, and all the Control Port has, after start-up. -/
def Obligations.StartUpOriginatesSafeCommands : Prop :=
  ∀ (cause : ResetCause) (s : State),
    let u := s.startUp cause
    let acts := (startActuators s.tables).zipIdx
    let placed := acts.map fun x => ({ tel := startTelegram s.tables x.2 x.1, cls := .action x.1 .safe } : Queued)
    let control := s.tables.notices
    let restart : NoticeEntry :=
      { source := .device, cls := .restart, priority := control.restart.priority, count := 1
        detail := match cause with
          | .powerOn => 1
          | .commanded => 2 }
    let alert (p : PassId) : NoticeEntry :=
      { source := .pass p, cls := .alert, priority := control.alert.priority, count := 1, detail := 13 }
    let returned := ([0, 1, 2, 3] : List PassId).filter fun p => (s.params p).configured && !s.tables.marks.get p
    let told := (if control.restart.enabled then [restart] else [])
      ++ if control.alert.enabled then returned.map alert else []
    u.traffic.actions = (acts.map fun x => startEntry s.tables x.2 x.1)
      ∧ u.traffic.tagCounter = BitVec.ofNat 8 acts.length
      ∧ u.traffic.field =
          { queue := placed.tail, overrun := false
            sending := placed.head?.map fun q => { tel := q.tel, endsInReset := false } }
      ∧ u.traffic.ctl =
          { port :=
              { queue := [], overrun := false
                sending := told.head?.map fun e => { tel := noticeTelegram s.tables.device e, endsInReset := false } }
            notices := told.tail }

/-! ### Commands and their verdicts (chapters 7 and 8) -/

/-- R114: the rows GATE_SET, SIGNAL_SET and BREAKER_SET run whatever the command asks. No pass record changes, only the
traffic and the line-silence timer, and of the traffic only what is of the command's pass, but for entries removed to
make room (R146). `arrive` is what becomes of the traffic. -/
def Obligations.CommandsTouchTheirPass : Prop :=
  ∀ (a : Actuator) (t : Telegram) (s : State), fate .control t s = .command a →
    ∃ u, exec (commandRow a t) s = .next u
      ∧ u = { s with
          silence := startedSilence s.tables.device.silenceTime
          traffic := s.traffic.arrive s.view a t }
      ∧ elsewhere a.pass s u

/-- R114, R128: a held command of the same actuator is removed and answered SUPERSEDED first, and the new command, of
either direction, then goes on as if nothing had been held. -/
def Obligations.HeldCommandIsSuperseded : Prop :=
  ∀ (a : Actuator) (t : Telegram) (s : State) (e : HeldEntry), fate .control t s = .command a → PoolSound s →
    e ∈ s.traffic.pool → e.actuator = a →
    exec (commandRow a t) s = exec (commandRow a t)
      { s with
        traffic := Traffic.answer s.tables e.requester .superseded .noReason 0
          { s.traffic with pool := s.traffic.pool.filter fun x => !decide (x.actuator = a) } }

/-- R144, R145: a safe-direction command of a configured pass is taken in every pass state. After it the actuator's line
is one ISSUED safe entry with nothing behind it, and no command of the actuator is held. R144 to R146: how it is taken,
received or originated. The WAITING entries of the actuator are cancelled in order with SAFE-PREEMPT, then an ISSUED non-safe
one. Where no safe entry is ISSUED, the oldest WAITING entry of a queue of 32 is cancelled with ROOM, and a new entry is
issued; an originated one takes the tag counter's value (R138). Where a safe entry is ISSUED it stays with its deadline; a copy
of its telegram is placed where that was SENT, and its standing is then QUEUED. -/
def Obligations.SafeCommandIsTaken : Prop :=
  (∀ (a : Actuator) (t : Telegram) (s : State), fate .control t s = .command a → t.value.toInt ≤ 0 → CommandsSound s →
    ∃ u e, exec (commandRow a t) s = .next u ∧ lineOf u.traffic a = [e] ∧ e.isIssuedFor a = true ∧ e.direction = .safe
      ∧ ∀ x ∈ u.traffic.pool, x.actuator ≠ a)
  ∧ (∀ (a : Actuator) (t : Telegram) (s : State), fate .control t s = .command a → t.value.toInt ≤ 0 →
      (∀ e ∈ s.traffic.pool, e.actuator ≠ a) →
      exec (commandRow a t) s = .next
        { s with
          silence := startedSilence s.tables.device.silenceTime
          traffic := s.traffic.takeSafe s.view a (some { src := t.src, tag := t.tag, point := t.point })
            { qual := t.qual, ann := t.ann, table := t.table, ext := t.ext } })
  ∧ ∀ (v : View) (tr : Traffic) (a : Actuator) (origin : Option Requester) (carried : Carried) (cp : PointEntry),
      commandPoint v.tables a = some cp →
      let taken := tr.takeSafe v a origin carried
      let cleared := withoutWaiting v.tables a .safePreempt tr
      let made (x : Traffic) : Traffic :=
        let roomy : Traffic :=
          if x.actions.length < 32 then x
          else match x.actions.find? fun e => decide (e.state = .waiting) with
            | some e => entryAnswered v.tables e .cancelled .room 0
                { x with actions := x.actions.eraseP fun e => decide (e.state = .waiting) }
            | none => x
        let entry : ActionEntry :=
          { actuator := a, direction := .safe, value := 0
            origin := match origin with
              | some r => .station r
              | none => .originated roomy.tagCounter
            carried := carried, state := .waiting }
        let tel := actionTelegram v.tables.device.ownStation cp entry 0
        Traffic.placeField v.tables { tel := tel, cls := .action a .safe }
          { roomy with
            actions := roomy.actions ++ [{ entry with state := .issued (cp.response.getD 0) false tel }]
            tagCounter := if origin = none then roomy.tagCounter + 1 else roomy.tagCounter
            history := noteIssue a .safe roomy.history }
      (issuedEntry tr a = none → taken = made cleared)
      ∧ ∀ e, issuedEntry tr a = some e →
          (e.direction = .nonSafe →
            taken = made (withoutIssued a (entryAnswered v.tables e .cancelled .safePreempt 0 cleared)))
          ∧ (e.direction = .safe → ∀ deadline sent tel, e.state = .issued deadline sent tel →
              (sent = false → taken = cleared)
              ∧ (sent = true →
                  taken = Traffic.placeField v.tables { tel := tel, cls := .action a .safe }
                    { cleared with
                      actions := cleared.actions.map fun x =>
                        if x.isIssuedFor a then
                          { x with state := match x.state with
                              | .issued d _ tel' => .issued d false tel'
                              | .waiting => .waiting }
                        else x }))

/-- R119, R127, R137, R138: what becomes of a non-safe command whose actuator holds no other, by its verdict at arrival:
refused, held, turned away by a full pool, a full line or a full queue, admitted behind the actuator's entries, or issued
to an empty line; and how it is answered. Nothing else changes. R118: the verdict at arrival is that of the procedure, but that
a HOLD in a row whose hold time is 0 becomes REFUSE with the same reason; the hold timer starts at the row's hold time (R111). R4: the bytes of an answer, and its codes. R138: the bytes of
an action telegram, of an admitted command and of an originated one. R5: each with a fresh check. -/
def Obligations.NonSafeCommandFollowsItsVerdict : Prop :=
  (∀ (a : Actuator) (t : Telegram) (s : State), fate .control t s = .command a → 0 < t.value.toInt →
    (∀ e ∈ s.traffic.pool, e.actuator ≠ a) →
    let tr := s.traffic
    let vd := arrivalVerdict s.view tr a t.value.toInt.toNat
    let line := lineOf tr a
    let reply (ans : Answer) (reason : Reason) (value : Nat) (x : Traffic) : Traffic :=
      x.answer s.tables { src := t.src, tag := t.tag, point := t.point } ans reason value
    let carried : Carried := { qual := t.qual, ann := t.ann, table := t.table, ext := t.ext }
    let entry : ActionEntry :=
      { actuator := a, direction := .nonSafe, value := vd.value
        origin := .station { src := t.src, tag := t.tag, point := t.point }, carried := carried, state := .waiting }
    let answers (x : Traffic) : Prop :=
      exec (commandRow a t) s = .next { s with silence := startedSilence s.tables.device.silenceTime, traffic := x }
    (vd.severity = .refuse → answers (reply .refused vd.reason 0 tr))
    ∧ (vd.severity = .hold →
        (tr.pool.length < 16 →
          answers (reply .held vd.reason 0
            { tr with pool := tr.pool ++
                [{ actuator := a, requester := { src := t.src, tag := t.tag, point := t.point }, value := t.value
                   carried := carried, timer := holdTime s.view a, reason := vd.reason }] }))
        ∧ (16 ≤ tr.pool.length → answers (reply .refused .holdFull 0 tr)))
    ∧ (vd.severity = .pass ∨ vd.severity = .clamp →
        (4 ≤ line.length → answers (reply .refused .actuatorBusy 0 tr))
        ∧ (line.length < 4 → 32 ≤ tr.actions.length → answers (reply .refused .queueFull 0 tr))
        ∧ (line.length < 4 → tr.actions.length < 32 →
            ∃ taken : Traffic,
              answers (if vd.severity = .clamp then reply .clamped vd.reason vd.value taken else taken)
              ∧ entryTaken s.tables tr entry taken)))
  ∧ (∀ (v : View) (tr : Traffic) (a : Actuator) (r : Nat),
      let vd := judge v tr a r
      let table := v.tables.interlock.get a.pass
      let row : InterlockRow :=
        match a with
        | .gate _ _ => table.gateOpen
        | .signal _ _ => table.signalOn
        | .breaker _ _ => table.breakerStart
      holdTime v a = row.holdTime
      ∧ (vd.severity = .hold → row.holdTime = 0 → arrivalVerdict v tr a r = { vd with severity := .refuse })
      ∧ (vd.severity ≠ .hold ∨ row.holdTime ≠ 0 → arrivalVerdict v tr a r = vd))
  ∧ (∀ (tb : Tables) (r : Requester) (ans : Answer) (reason : Reason) (value : Nat) (tr : Traffic),
      tr.answer tb r ans reason value = tr.placeControl tb
        { tel := withCheck
            { dest := r.src, src := tb.device.ownStation, kind := 3, point := r.point, tag := r.tag, qual := ans.code
              ann := BitVec.ofNat 8 reason.code, table := 0, value := BitVec.ofNat 32 value, ext := 0, check := 0 }
          cls := .verdict })
  ∧ ([Answer.refused, .held, .clamped, .released, .cancelled, .expired, .superseded].map Answer.code
        = [1, 2, 3, 4, 5, 6, 7]
      ∧ [Reason.noReason, .passState, .table, .wagon, .breaker, .signal, .grizzly, .wet, .notice, .holdFull, .queueFull,
          .actuatorBusy, .predecessor, .safePreempt, .trip, .room].map Reason.code = List.range 16)
  ∧ (∀ (own station point : Byte) (cp : PointEntry) (e : ActionEntry) (value : Nat),
      cp.station = some station → cp.point = some point →
      let built (src tag : Byte) : Telegram := withCheck
        { dest := station, src := src, kind := 1, point := point, tag := tag, qual := e.carried.qual, ann := e.carried.ann
          table := e.carried.table, value := BitVec.ofNat 32 value, ext := e.carried.ext, check := 0 }
      (∀ r, e.origin = .station r → actionTelegram own cp e value = built r.src r.tag)
      ∧ ∀ tag, e.origin = .originated tag → actionTelegram own cp e value = built own tag)
  ∧ ∀ t : Telegram, checkHolds (withCheck t) = true ∧ withCheck t = { t with check := (withCheck t).check }

/-- R115, R116: the verdict is REFUSE where the pass is in no state to be judged, the table cell refuses or a gate's
opening limit is 0; otherwise HOLD where the cell holds or a precondition is not met; otherwise CLAMP where a gate's
forwarded opening is below the one asked for; otherwise PASS. The reason is that of the first check, in the order of
R115, that gave this severity. That an UNCONFIGURED pass, which no command reaches (R26, R113), is refused with
PASS-STATE as a TRIPPED or ISOLATED one is the model's choice (DESIGN CHOICE, log entry 12). -/
def Obligations.VerdictIsTheMostSevere : Prop :=
  ∀ (v : View) (tr : Traffic) (a : Actuator) (r : Nat),
    let vd := judge v tr a r
    let live := (v.passes.get a.pass).mode.isLive
    let cell := interlockCell v a
    let wet := ∃ p c, a = .gate p c ∧ openingLimit v p = 0
    let refuses := live = false ∨ cell = some .refuse ∨ wet
    let holds := cell = some .hold ∨ ¬preconditionsMet v tr a
    (vd.severity = .refuse ↔ refuses)
    ∧ (vd.severity = .hold ↔ ¬refuses ∧ holds)
    ∧ (vd.severity = .clamp ↔ ¬refuses ∧ ¬holds ∧ (∃ p c, a = .gate p c) ∧ vd.value < r)
    ∧ (refuses →
        (live = false → vd.reason = .passState)
        ∧ (live = true → cell = some .refuse → vd.reason = .table)
        ∧ (live = true → cell ≠ some .refuse → vd.reason = .wet))
    ∧ (¬refuses → cell = some .hold → vd.reason = .table)
    ∧ (¬refuses → cell ≠ some .hold → ¬preconditionsMet v tr a →
        (∀ p c, a = .gate p c →
          vd.reason = if ((v.passes.get p).chutes.get c).wagon ≠ .present then .wagon else .notice)
        ∧ (∀ p t, a = .signal p t →
            vd.reason = if ((v.passes.get p).tips.get t).breaker ≠ .parked ∨ hasNonSafe tr (.breaker p t) = true
              then .breaker else .grizzly)
        ∧ (∀ p t, a = .breaker p t → vd.reason = .signal))
    ∧ (vd.severity = .pass → vd.reason = .noReason)

/-- R117: the forwarded opening of a gate is the least of the request, the opening limit, the bound of a CLAMP cell and
100, and a CLAMP names what cut the request; a signal or breaker is forwarded at 1 and never clamped. R113: the column
of the table is the stored band in RUNNING, ALERT in ALERT, none in the other states. R3: the pass condition code. R25, R34,
R96, R105, R111, R116: what a judgement reads: the cell of the actuator's row in that column, the opening limit for the head
wetness, the actuator's command point, a gate's tolerance and whether it is open above it, and the Action Queue's entries. -/
def Obligations.InterlockReadings : Prop :=
  (∀ (v : View) (a : Actuator),
    let row : InterlockRow :=
      match a with
      | .gate p _ => (v.tables.interlock.get p).gateOpen
      | .signal p _ => (v.tables.interlock.get p).signalOn
      | .breaker p _ => (v.tables.interlock.get p).breakerStart
    interlockCell v a =
      match interlockColumn (v.passes.get a.pass) with
      | none => none
      | some .empty => some row.empty
      | some .low => some row.low
      | some .normal => some row.normal
      | some .high => some row.high
      | some .full => some row.full
      | some .alert => some row.alert)
  ∧ ([Band.empty, .low, .normal, .high, .full].map Band.column = [.empty, .low, .normal, .high, .full]
      ∧ [Band.empty, .low, .normal, .high, .full].map Band.code = [0, 1, 2, 3, 4]
      ∧ [Wetness.dry, .damp, .wet, .slurry].map Wetness.code = [0, 1, 2, 3]
      ∧ (∀ q : Quad Nat, [Wetness.dry, .damp, .wet, .slurry].map (byWetness q) = [q.at0, q.at1, q.at2, q.at3])
      ∧ (∀ c : Column, (c.charges = [] → headWetness c = .dry)
          ∧ ∀ head rest, c.charges = head :: rest → headWetness c = head.wetness)
      ∧ (∀ m : PassState, (m.isLive = true ↔ m = .running ∨ m = .alert)
          ∧ (m.inService = true ↔ m = .running ∨ m = .alert ∨ m = .tripped)))
  ∧ (∀ (v : View) (p : PassId) (c : ChuteId),
      openingLimit v p = byWetness (v.tables.openings.get p) (headWetness (v.passes.get p).column)
      ∧ (commandPoint v.tables (.gate p c) = none → gateTolerance v.tables p c = 3)
      ∧ (∀ cp n, commandPoint v.tables (.gate p c) = some cp → cp.tolerance = some n → gateTolerance v.tables p c = n)
      ∧ (openAboveTolerance v p c = true ↔
          ∃ g, ((v.passes.get p).chutes.get c).gate = some g ∧ gateTolerance v.tables p c < g))
  ∧ (∀ (tb : Tables) (a : Actuator), PointsSound tb →
      let role : Role :=
        match a with
        | .gate _ _ => .gateSet
        | .signal _ _ => .signalSet
        | .breaker _ _ => .breakerSet
      let number : Nat :=
        match a with
        | .gate _ c => c.val
        | .signal _ t => t.val
        | .breaker _ t => t.val
      let gives (e : PointEntry) : Prop :=
        e.valid = true ∧ e.role = some role ∧ e.pass = some a.pass ∧ ∃ o, e.object = some o ∧ o.val = number
      a.commandRole = role ∧ a.object.val = number
      ∧ a.pass = (match a with
          | .gate p _ => p
          | .signal p _ => p
          | .breaker p _ => p)
      ∧ (∀ i : Fin 128, gives (tb.points.get i) → commandPoint tb a = some (tb.points.get i))
      ∧ ((∀ i : Fin 128, ¬gives (tb.points.get i)) → commandPoint tb a = none)
      ∧ (hasCommandPoint tb a = true ↔ ∃ i : Fin 128, gives (tb.points.get i)))
  ∧ (∀ (tr : Traffic) (a : Actuator) (d : Direction),
      (hasNonSafe tr a = true ↔ ∃ e ∈ tr.actions, e.actuator = a ∧ e.direction = .nonSafe)
      ∧ (hasIssued tr a d = true ↔ ∃ e ∈ tr.actions, e.isIssuedFor a = true ∧ e.direction = d))
  ∧ (∀ (v : View) (tr : Traffic) (p : PassId) (c : ChuteId) (r : Nat),
    let vd := judge v tr (.gate p c) r
    let cell := interlockCell v (.gate p c)
    (∀ n, cell = some (.clamp n) → vd.value = min (min r n) (min (openingLimit v p) 100))
    ∧ ((∀ n, cell ≠ some (.clamp n)) → vd.value = min r (min (openingLimit v p) 100))
    ∧ (vd.severity = .clamp →
        vd.reason = if cell = some (.clamp vd.value) then .table else if vd.value = 100 then .noReason else .wet))
  ∧ (∀ (v : View) (tr : Traffic) (p : PassId) (t : TipId) (r : Nat),
      (judge v tr (.signal p t) r).value = 1 ∧ (judge v tr (.breaker p t) r).value = 1
        ∧ (judge v tr (.signal p t) r).severity ≠ .clamp ∧ (judge v tr (.breaker p t) r).severity ≠ .clamp)
  ∧ ∀ x : Pass,
      (x.mode = .running → interlockColumn x = some x.est.band.column ∧ conditionCode x = x.est.band.code)
      ∧ (x.mode = .alert → interlockColumn x = some .alert ∧ conditionCode x = 5)
      ∧ (x.mode = .tripped → interlockColumn x = none ∧ conditionCode x = 6)
      ∧ (x.mode = .isolated → interlockColumn x = none ∧ conditionCode x = 7)
      ∧ (x.mode = .unconfigured → interlockColumn x = none ∧ conditionCode x = 8)

/-- R118: wherever the verdict procedure is run, at the arrival of a command, in a round of re-judgement, at promotion
after a confirmation, every non-safe entry that comes out ISSUED and was not ISSUED before may be placed as the pass
then stands: RUNNING or ALERT, no REFUSE or HOLD in its cell, a gate opening within table clamp, opening limit and 100. -/
def Obligations.OnlyAllowedCommandsAreIssued : Prop :=
  ∀ (v : View) (tr tr' : Traffic),
    ((∃ a t, tr' = tr.arrive v a t) ∨ (∃ p b, tr' = tr.change v p b) ∨ (∃ a, tr' = tr.confirm v a)
      ∨ ∃ a, tr' = tr.originate v a) →
    ∀ e ∈ tr'.actions, e.direction = .nonSafe → e.isIssuedFor e.actuator = true →
      placeable v e.actuator e.value
        ∨ ∃ e₀ ∈ tr.actions, e₀.isIssuedFor e.actuator = true ∧ e₀.direction = .nonSafe ∧ e₀.value = e.value

/-- R121, R123, R124: an interlock-relevant change brings, where it is one of R123, the standing check, then a round. The
check runs in RUNNING and ALERT alone and takes, in the order gates, signals, breakers, each engaged actuator that meets a
REFUSE cell or, a gate, an opening limit of 0: its safe command is originated and a FORCED notice raised with TABLE or WET
as detail. The raises of one check coalesce into one entry, on an idle line too (DEDUCED, log entry 8): its count is the number of
raises, or grows by it up to 255, and its detail is the last. Each of these actuators is then ordered safe; another
actuator's entries stay but for those removed to make room (R146).
R129 to R131: a round takes the entries of its pass present when it begins, in arrival order. An entry judged REFUSE leaves,
answered REFUSED; one judged HOLD stays with the new reason; one judged PASS or CLAMP leaves for the Action Queue, answered
RELEASED with the forwarded value, or REFUSED where it is turned away. A round leaves the held commands of other passes
alone, admits none to the pool, and what stays held keeps its place, its requester, its value and the remaining duration
of its hold timer. -/
def Obligations.RoundKeepsWhatStaysHeld : Prop :=
  (∀ (v : View) (p : PassId) (tr : Traffic),
    (∀ q, q ≠ p → (tr.round v p).pool.filter (HeldEntry.isOf q) = tr.pool.filter (HeldEntry.isOf q))
    ∧ ((tr.round v p).pool.map fun e => (e.actuator, e.requester, e.value, e.carried, e.timer)).Sublist
        (tr.pool.map fun e => (e.actuator, e.requester, e.value, e.carried, e.timer))
    ∧ tr.round v p = (tr.pool.filter fun e => decide (e.actuator.pass = p)).foldl (Traffic.rejudge v) tr)
  ∧ (∀ (v : View) (tr : Traffic) (e : HeldEntry),
      let a := e.actuator
      let vd := judge v tr a e.value.toInt.toNat
      let out : Traffic := { tr with pool := tr.pool.filter fun x => !decide (x.actuator = a) }
      let answers (ans : Answer) (reason : Reason) (value : Nat) (x : Traffic) : Prop :=
        tr.rejudge v e = x.answer v.tables e.requester ans reason value
      (vd.severity = .refuse → answers .refused vd.reason 0 out)
      ∧ (vd.severity = .hold →
          tr.rejudge v e =
            { tr with pool := tr.pool.map fun x => if x.actuator = a then { x with reason := vd.reason } else x })
      ∧ (vd.severity = .pass ∨ vd.severity = .clamp →
          (4 ≤ (lineOf tr a).length → answers .refused .actuatorBusy 0 out)
          ∧ ((lineOf tr a).length < 4 → 32 ≤ tr.actions.length → answers .refused .queueFull 0 out)
          ∧ ((lineOf tr a).length < 4 → tr.actions.length < 32 →
              ∃ taken, answers .released vd.reason vd.value taken
                ∧ entryTaken v.tables out
                    { actuator := a, direction := .nonSafe, value := vd.value, origin := .station e.requester
                      carried := e.carried, state := .waiting } taken)))
  ∧ (∀ (v : View) (p : PassId) (tr : Traffic),
      let forced := forcedBy v tr p
      let checked := tr.standingCheck v p
      ((v.passes.get p).mode.isLive = false → checked = tr)
      ∧ ((v.passes.get p).mode.isLive = true →
          (forced = [] → checked = tr)
          ∧ (∀ last, forced.getLast? = some last →
              let ordered := forced.foldl (fun x f => x.takeSafe v f.1 none noCarried) tr
              let c := ordered.ctl
              let control := v.tables.notices.get .forced
              let made : NoticeEntry :=
                { source := .pass p, cls := .forced, priority := control.priority, count := forced.length
                  detail := last.2.code }
              (control.enabled = false → checked = ordered)
              ∧ (control.enabled = true →
                  ((∃ e ∈ c.notices, e.source = .pass p ∧ e.cls = .forced) →
                    checked =
                      { ordered with
                        ctl := { c with
                          notices := c.notices.map fun e =>
                            if e.source = .pass p ∧ e.cls = .forced then
                              { e with count := min (e.count + forced.length) 255, detail := last.2.code }
                            else e } })
                  ∧ ((∀ e ∈ c.notices, ¬(e.source = .pass p ∧ e.cls = .forced)) →
                      (∀ x, c.port.sending = some x →
                        checked = { ordered with ctl := { c with notices := c.notices ++ [made] } })
                      ∧ (c.port.sending = none → c.port.queue = [] → c.notices = [] →
                          checked =
                            { ordered with
                              ctl := { c with
                                port := { c.port with
                                  sending := some
                                    { tel := noticeTelegram v.tables.device made, endsInReset := false } } } }))))
          ∧ (LinesOrdered tr → ∀ f ∈ forced, orderedSafe checked f.1)
          ∧ (∀ a, (∀ f ∈ forced, f.1 ≠ a) →
              ((lineOf checked a).map (ActionEntry.withStanding true)).Sublist
                ((lineOf tr a).map (ActionEntry.withStanding true)))
          ∧ ∀ f, forced.getLast? = some f → announced v.tables (.pass p) .forced f.2.code tr.ctl checked.ctl))
  ∧ (∀ (v : View) (p : PassId) (a : Actuator) (tr : Traffic),
      tr.change v p false = tr.round v p ∧ tr.change v p true = (tr.standingCheck v p).round v p
      ∧ tr.originate v a = if hasCommandPoint v.tables a then tr.takeSafe v a none noCarried else tr)
  ∧ ∀ (p : PassId) (s : State),
      s.reportChange p = { s with traffic := s.traffic.round s.view p }
      ∧ s.reportStandingChange p = { s with traffic := (s.traffic.standingCheck s.view p).round s.view p }
      ∧ (∀ src cls detail, s.raise src cls detail = { s with traffic := s.traffic.raise s.tables src cls detail })
      ∧ noCarried = { qual := 0, ann := 0, table := 0, ext := 0 }

/-! ### The Action Queue (chapter 9) -/

/-- R139, R140, R148: a confirmation candidate against the ISSUED entry of its actuator, and what confirms it. Where the
confirmed state matches, the entry is removed, its unsent telegram withdrawn and, for a gate close, the movement reference
set to CLOSED; then its line is promoted. The oldest WAITING entry is judged: on PASS or CLAMP it is ISSUED with the
forwarded value, its telegram placed, and answered CLAMPED where that is below its own value; the others go on waiting. On
HOLD or REFUSE it is removed, answered CANCELLED with the reason, and so is each entry behind it in turn, because only a
CLAMP depends on the value asked for. Where the confirmed state does not match, or no entry is ISSUED, nothing in the queue
changes. R98: an issued open sets its gate's movement reference and last issued direction to OPEN; an issued close sets the
direction to CLOSE and leaves the reference; a confirmed close sets the reference to CLOSED and leaves the direction; a
confirmed open, and whatever is issued or confirmed for another gate, a signal or a breaker, changes neither. R135: the ISSUED
entry of an actuator is the first of its entries in that state. -/
def Obligations.ConfirmationRetires : Prop :=
  (∀ (v : View) (tr : Traffic) (a : Actuator),
    (∀ e, issuedEntry tr a = some e → confirms v e = true →
      let retired : Traffic := { withoutIssued a tr with history := noteRetired a e.direction tr.history }
      ((∀ x ∈ tr.actions, x.isWaitingFor a = false) → tr.confirm v a = retired)
      ∧ ∀ pre w post, retired.actions = pre ++ w :: post → (∀ x ∈ pre, x.isWaitingFor a = false) →
          w.isWaitingFor a = true →
          let vd := judge v retired a w.value
          (vd.severity = .pass ∨ vd.severity = .clamp → ∀ cp, commandPoint v.tables a = some cp →
            let tel := actionTelegram v.tables.device.ownStation cp w vd.value
            let issued := Traffic.placeField v.tables { tel := tel, cls := .action a w.direction }
              { retired with
                actions :=
                  pre ++ { w with value := vd.value, state := .issued (cp.response.getD 0) false tel } :: post
                history := noteIssue a w.direction retired.history }
            tr.confirm v a =
              if vd.value < w.value then entryAnswered v.tables w .clamped vd.reason vd.value issued else issued)
          ∧ (vd.severity = .hold ∨ vd.severity = .refuse →
              tr.confirm v a = withoutWaiting v.tables a vd.reason retired))
    ∧ (∀ e, issuedEntry tr a = some e → confirms v e = false → tr.confirm v a = tr)
    ∧ (issuedEntry tr a = none → tr.confirm v a = tr))
  ∧ (∀ (v : View) (e : ActionEntry),
      (∀ p c, e.actuator = .gate p c →
        let tol := gateTolerance v.tables p c
        (confirms v e = true ↔ ∃ g, ((v.passes.get p).chutes.get c).gate = some g
          ∧ if e.direction = .safe then g ≤ tol else g ≤ e.value + tol ∧ e.value ≤ g + tol))
      ∧ (∀ p t, e.actuator = .signal p t →
          (confirms v e = true ↔
            ((v.passes.get p).tips.get t).signal = if e.direction = .safe then .isOff else .isOn))
      ∧ ∀ p t, e.actuator = .breaker p t →
          (confirms v e = true ↔
            ((v.passes.get p).tips.get t).breaker = if e.direction = .safe then .parked else .working))
  ∧ (∀ (h : Quad (Duo GateHistory)) (d : Direction) (p : PassId),
      (∀ (c : ChuteId) (q : PassId) (g : ChuteId),
        let old := (h.get q).get g
        ((noteIssue (.gate p c) d h).get q).get g =
            (if q = p ∧ g = c then
              match d with
              | .nonSafe => { reference := .opened, lastIssued := .opening }
              | .safe => { old with lastIssued := .closing }
            else old)
          ∧ ((noteRetired (.gate p c) d h).get q).get g =
              if q = p ∧ g = c ∧ d = .safe then { old with reference := .closed } else old)
      ∧ ∀ t : TipId, noteIssue (.signal p t) d h = h ∧ noteIssue (.breaker p t) d h = h
          ∧ noteRetired (.signal p t) d h = h ∧ noteRetired (.breaker p t) d h = h)
  ∧ ∀ (tr : Traffic) (a : Actuator) (e : ActionEntry),
      (e.isIssuedFor a = true ↔ e.actuator = a ∧ ∃ deadline sent tel, e.state = .issued deadline sent tel)
      ∧ (e.isWaitingFor a = true ↔ e.actuator = a ∧ e.state = .waiting)
      ∧ (issuedEntry tr a = none ↔ ∀ x ∈ tr.actions, x.isIssuedFor a = false)
      ∧ ∀ pre post, tr.actions = pre ++ e :: post → (∀ x ∈ pre, x.isIssuedFor a = false) → e.isIssuedFor a = true →
          issuedEntry tr a = some e

/-- R141, R143: the row DEADLINE_EXPIRY. A failed non-safe action leaves a safe command ISSUED at the head of its
actuator's line, and puts a RUNNING pass into ALERT; a failed safe action trips a RUNNING or ALERT pass, which then has
its safe command ISSUED again, and in any other state leaves the actuator without an entry. Other passes are not
touched. R143, in its order: the entry and its unsent telegram go, each entry waiting behind it is answered CANCELLED with
PREDECESSOR, an ACTION-FAIL notice is raised with ten times the operation code plus the object, and the cause ACTION-FAIL or
SAFE-FAIL is handed with no interrupted telegram. A deadline of an actuator with no ISSUED entry does not run out (log entry 4). -/
def Obligations.FailedActionMakesSafe : Prop :=
  (∀ (a : Actuator) (s : State) (e : ActionEntry), CommandsSound s → s.resetPending = false →
    issuedEntry s.traffic a = some e →
    ∃ u, exec (.deadlineExpiry a) s = .next u
      ∧ u = afterFailure e none s
      ∧ u = { s with passes := u.passes, traffic := u.traffic } ∧ elsewhere a.pass s u
      ∧ u.pass a.pass = (if e.direction = .nonSafe then (s.pass a.pass).withAlert .actionFail s.time none
          else (s.pass a.pass).withTrip .safeFail s.time none)
      ∧ (e.direction = .nonSafe →
          (u.pass a.pass).mode = (if (s.pass a.pass).mode = .running then .alert else (s.pass a.pass).mode)
          ∧ ∃ f rest, lineOf u.traffic a = f :: rest ∧ f.isIssuedFor a = true ∧ f.direction = .safe)
      ∧ (e.direction = .safe →
          (u.pass a.pass).mode = (s.pass a.pass).mode.afterTrip True
          ∧ ((s.pass a.pass).mode.isLive = true →
              ∃ f, lineOf u.traffic a = [f] ∧ f.isIssuedFor a = true ∧ f.direction = .safe)
          ∧ ((s.pass a.pass).mode.isLive = false → lineOf u.traffic a = [])))
  ∧ ∀ (a : Actuator) (s : State), issuedEntry s.traffic a = none → s.resetPending = false →
      exec (.deadlineExpiry a) s = .next s

/-- R147, R155: the entry of a pass to TRIPPED leaves, for every actuator of the pass with a command point, one ISSUED
safe entry and nothing behind it, no entry of any other actuator of the pass, no held command of the pass, and no
non-safe telegram of the pass in the Field Port queue; and it raises a TRIP notice with the cause as detail. R133, R155: the
whole entry of a pass in RUNNING or ALERT, in its order: the record; the safe command of each actuator with a command point,
signals, gates, breakers; the purge, each held command of the pass answered REFUSED with TRIP and Value 0 in arrival order; the
notice; the report of the change, without standing check. -/
def Obligations.TripLeavesSafeCommands : Prop :=
  (∀ (p : PassId) (c : Cause) (tel : Option Interrupted) (s : State),
    (s.pass p).mode = .running ∨ (s.pass p).mode = .alert → s.enterTripped p c tel = afterTripping p c tel s)
  ∧ ∀ (p : PassId) (c : Cause) (tel : Option Interrupted) (s : State), CommandsSound s → ActionTelegramsMatched s.traffic →
    let u := s.enterTripped p c tel
    (u.pass p).mode = .tripped
    ∧ (∀ a : Actuator, a.pass = p →
        (hasCommandPoint s.tables a = true → orderedSafe u.traffic a)
        ∧ (hasCommandPoint s.tables a = false → lineOf u.traffic a = []))
    ∧ (∀ e ∈ u.traffic.pool, e.actuator.pass ≠ p)
    ∧ announced s.tables (.pass p) .trip c.code s.traffic.ctl u.traffic.ctl
    ∧ ∀ q ∈ u.traffic.field.queue, ∀ a, q.cls = .action a .nonSafe → a.pass ≠ p

/-! ### Reports (R28 to R30; chapters 3 to 6) -/

/-- R60 to R62, R70, R72: a LEVEL report makes its sample current and fresh, starts its life anew and brings one
evaluation of the pass; a pass of which the evaluation finds an enabled condition keeps its figures and, if RUNNING,
enters ALERT. The rest of the pass, and every other pass, stays as it was. R72, R73, R76: what the evaluation hands on: a
band that changed raises a BAND notice and is then reported with the standing check (this order is log entry 14), enabled
conditions are handed over as alert causes one after another. R31, R60: the sample: Bad where the raw count lies outside
0..65535 or the quality code above 1, and then at distance 0; otherwise at the scaled distance, rounded. R58: the rounded
quotient in each mode, and when it is inexact. -/
def Obligations.LevelReport : Prop :=
  (∀ (t : Telegram) (s : State) (h : Hit), fate .field t s = .report h → h.role = .level →
    (∃ u, exec (.level t) s = .next u ∧ reportFrame h.pass s u
      ∧ let pr := s.params h.pass
        let x : Pass := { s.pass h.pass with
          est := { (s.pass h.pass).est with sample := some (sampleOf pr h.entry t), life := some pr.staleTime } }
        u.pass h.pass = { x with
          est := x.evaluated pr false false
          mode := x.stateEvaluated pr false false
          alarm := (x.afterEvaluation pr false false s.time (carriedReport t)).alarm })
    ∧ let p := h.pass
      let pr := s.params p
      let before := (s.pass p).est
      let x : Pass := { s.pass p with
        est := { before with sample := some (sampleOf pr h.entry t), life := some pr.staleTime } }
      let causes := enabledCauses pr (findings pr x false false).causes
      let est := x.evaluated pr false false
      let noted : State := { s with passes := s.passes.set p { x with est := est } }
      (causes = [] → est.band = before.band → exec (.level t) s = .next (noted.relayApplied h t))
      ∧ (causes = [] → est.band ≠ before.band →
          exec (.level t) s = .next
            (((noted.raise (.pass p) .band est.band.code).reportStandingChange p).relayApplied h t))
      ∧ (causes ≠ [] →
          exec (.level t) s = .next
            ((causes.foldl (fun v c => v.alertCause p c (carriedReport t)) noted).relayApplied h t)))
  ∧ (∀ (pr : PassParams) (e : PointEntry) (t : Telegram),
      let raw := t.value.toInt
      let bad := raw < 0 ∨ 65535 < raw ∨ 1 < t.qual.toNat
      (bad → sampleOf pr e t = { distance := 0, quality := .bad, inexact := false, fresh := true })
      ∧ (¬bad → ∀ num den, e.scaleNum = some num → e.scaleDen = some den →
          sampleOf pr e t =
            { distance := (roundDiv pr.rounding (raw.toNat * num) den).1
              quality := if t.qual = 0 then .good else .uncertain
              inexact := decide (raw.toNat * num % den ≠ 0), fresh := true }))
  ∧ ∀ (m : Rounding) (a b : Nat), 0 < b →
      let q := (roundDiv m a b).1
      (m = .down → q * b ≤ a ∧ a < (q + 1) * b)
      ∧ (m = .up → a ≤ q * b ∧ q * b < a + b)
      ∧ (m = .nearest → 2 * (q * b) ≤ 2 * a + b ∧ 2 * a ≤ 2 * (q * b) + b
          ∧ (2 * (q * b) = 2 * a + b ∨ 2 * a = 2 * (q * b) + b → q % 2 = 0))
      ∧ ((roundDiv m a b).2 = true ↔ a % b ≠ 0)

/-- R36, R39, R40, R44, R45: the rows TIP, DRAW and GRIZZLY_CLEAR change the pass column as the Column Store's operations
give, bring one evaluation with the conditions the change raised, and set the standing of each grizzly whose accumulator
changed. A TIP or DRAW of no tonnage, and a GRIZZLY_CLEAR of an empty accumulator, change nothing but what their relay
places. The rest of the pass, and every other pass, stays as it was. R88: a TIP that takes a grizzly from BELOW to FULL
while its signal is confirmed ON, or has an on WAITING or ISSUED, leaves the signal ordered safe, and a signal confirmed ON
brings a FORCED notice with detail GRIZZLY (6). R39: a clear places the accumulator's tonnage as one oversize charge of
origin GRIZZLY, or merges it into the top of a column of 48, and empties the accumulator. R44, R45, R73, R76: what each hands on,
in order: a changed band, or the enabled conditions with the report; the head wetness change; the grizzly crossings; the
relay. That a changed band raises its notice before it is reported is log entry 14 (DEDUCED), that the crossings are taken in
tip-point order log entry 13 (DESIGN CHOICE), here and in the other statements that name `afterColumnChange`. -/
def Obligations.ColumnReports : Prop :=
  (∀ (t : Telegram) (s : State) (h : Hit), fate .field t s = .report h →
    let col := (s.pass h.pass).column
    let pr := s.params h.pass
    let changed (c : Instr) (r : Column) (o un : Bool) : Prop :=
      let x : Pass := { s.pass h.pass with column := r }
      ∃ u, exec c s = .next u ∧ reportFrame h.pass s u
        ∧ columnChanged s.tables h.pass col o un s.time (carriedReport t) x (u.pass h.pass)
        ∧ u = (afterColumnChange h.pass x col o un (carriedReport t) s).relayApplied h t
    (h.role = .tip →
      (t.value.toInt ≤ 0 → exec (.tip t) s = .next (s.relayApplied h t))
      ∧ (0 < t.value.toInt →
          let r := col.tip pr.rounding s.time h.object (min t.value.toInt.toNat 6000) (reportWetness t)
            (min t.ext.toNat 100)
          let signal := Actuator.signal h.pass h.object
          let record := (s.pass h.pass).tips.get h.object
          let limit := (s.tables.grizzly.get h.pass).get h.object
          let tonnage := (r.1.accums.get h.object).tonnage
          changed (.tip t) r.1 r.2 false
          ∧ (CommandsSound s → hasCommandPoint s.tables signal = true → record.standing = .below →
              tonnage ≠ (col.accums.get h.object).tonnage → 0 < limit → limit ≤ tonnage →
              record.signal = .isOn ∨ hasNonSafe s.traffic signal = true →
              ∃ u, exec (.tip t) s = .next u ∧ orderedSafe u.traffic signal
                ∧ (record.signal = .isOn →
                    announced s.tables (.pass h.pass) .forced 6 s.traffic.ctl u.traffic.ctl))))
    ∧ (h.role = .draw →
        (t.value.toInt ≤ 0 → exec (.draw t) s = .next (s.relayApplied h t))
        ∧ (0 < t.value.toInt →
            let r := col.draw pr.residue s.time (min t.value.toInt.toNat 6000)
            changed (.draw t) r.1 r.2.1 r.2.2))
    ∧ (h.role = .grizzlyClear →
        ((col.accums.get h.object).tonnage = 0 → exec (.grizzlyClear t) s = .next (s.relayApplied h t))
        ∧ (0 < (col.accums.get h.object).tonnage →
            let r := col.clearGrizzly s.time h.object
            changed (.grizzlyClear t) r.1 r.2 false)))
  ∧ ∀ (c : Column) (now : Word) (n : TipId),
      let a := c.accums.get n
      let emptied := c.accums.set n { tonnage := 0, wetness := .dry }
      (c.charges.length < 48 →
        c.clearGrizzly now n =
          ({ c with
            charges := c.charges ++
              [{ number := c.counter, origin := .grizzly n, placed := a.tonnage, remaining := a.tonnage
                 wetness := a.wetness, oversize := true, placedAt := now, merge := none }]
            counter := c.counter + 1
            accums := emptied }, false))
      ∧ ∀ pre top, c.charges = pre ++ [top] → c.charges.length = 48 →
          let e := top.remaining + a.tonnage - Config.tonnageCeiling
          c.clearGrizzly now n =
            ({ c with
              charges := pre ++
                [{ top with
                  remaining := min (top.remaining + a.tonnage) Config.tonnageCeiling
                  placed := min (top.placed + a.tonnage) Config.tonnageCeiling
                  wetness := if top.wetness.code < a.wetness.code then a.wetness else top.wetness
                  oversize := true
                  merge := some
                    { count := match top.merge with
                        | none => 1
                        | some r => min (r.count + 1) Config.countCeiling
                      latest := now } }]
              accums := emptied
              spill := min (c.spill + e) Config.totalCeiling }, decide (0 < e))

/-- R43, R103: a CHUTE_MOISTURE report raises the head wetness to its class, never lowers it, and only then brings one
evaluation; it sets the chute's last moisture class, and a Slurry report of a gate confirmed open above tolerance trips
a RUNNING or ALERT pass. R45, R123, R124: where the class raised gives an opening limit of 0, the standing check that the
head wetness change brings leaves every gate of a RUNNING or ALERT pass that is confirmed open above tolerance, or has an
ISSUED open, ordered safe, with a FORCED notice of detail TABLE (2) or WET (7). R100, R101: a WAGON report sets the wagon
confirmed state, and any value but 0 and 1 is ignored; ABSENT under such a gate forces it closed, where it has a command point,
and leaves it ordered safe, with a FORCED notice of detail WAGON (3); the change, where the state differs from the one held, is
then reported, and nothing else comes of it. R2: a wetness code above 3 is Slurry. The rest of the pass, and every other pass, stays as it
was. R103, R151, R152: the trip's cause is MUD-RUSH with the report, and without a cause the alarm record stays; what the column
change hands on (R44, R45; orders: log entries 13 and 14) comes before it. R43: what a moisture report does to the column. -/
def Obligations.ChuteReports : Prop :=
  (∀ (t : Telegram) (s : State) (h : Hit), fate .field t s = .report h →
    let p := h.pass
    let x := s.pass p
    let c := chuteOf h.object
    (h.role = .chuteMoisture →
      ∃ u, exec (.chuteMoisture t) s = .next u ∧ reportFrame p s u
        ∧ let w := reportWetness t
          let noted := x.chutes.set c { x.chutes.get c with moisture := some w }
          let muddy := w = .slurry ∧ openAboveTolerance s.view p c = true
          let raised : Pass := { x with column := x.column.moisten w }
          let rushed (y : Pass) : Pass := if muddy then y.withTrip .mudRush s.time (carriedReport t) else y
          let told := if headWetness raised.column = headWetness x.column then s
            else afterColumnChange p raised x.column false false (carriedReport t) s
          let kept : State := { told with passes := told.passes.set p { told.pass p with chutes := noted } }
          u = (if muddy then kept.tripCause p .mudRush (carriedReport t) else kept).relayApplied h t
          ∧ (headWetness raised.column = headWetness x.column → u.pass p = rushed { x with chutes := noted })
          ∧ (headWetness raised.column ≠ headWetness x.column →
              u.pass p = rushed { raised with
                est := raised.evaluated (s.params p) false false
                chutes := noted
                mode := raised.stateEvaluated (s.params p) false false
                alarm := (raised.afterEvaluation (s.params p) false false s.time (carriedReport t)).alarm }
              ∧ ∀ g : ChuteId, CommandsSound s → x.mode.isLive = true → byWetness (s.tables.openings.get p) w = 0 →
                  hasCommandPoint s.tables (.gate p g) = true →
                  openAboveTolerance s.view p g = true ∨ hasIssued s.traffic (.gate p g) .nonSafe = true →
                  orderedSafe u.traffic (.gate p g)
                    ∧ (announced s.tables (.pass p) .forced 2 s.traffic.ctl u.traffic.ctl
                      ∨ announced s.tables (.pass p) .forced 7 s.traffic.ctl u.traffic.ctl)))
    ∧ (h.role = .wagon →
        (t.value ≠ 0 → t.value ≠ 1 → exec (.wagon t) s = .next (s.relayApplied h t))
        ∧ (t.value = 0 ∨ t.value = 1 →
            ∃ u, exec (.wagon t) s = .next u ∧ reportFrame p s u
              ∧ u.pass p = { x with
                chutes := x.chutes.set c
                  { x.chutes.get c with wagon := if t.value = 1 then .present else .absent } }
              ∧ (t.value = 0 → CommandsSound s → hasCommandPoint s.tables (.gate p c) = true →
                  openAboveTolerance s.view p c = true ∨ hasIssued s.traffic (.gate p c) .nonSafe = true →
                  orderedSafe u.traffic (.gate p c)
                    ∧ announced s.tables (.pass p) .forced 3 s.traffic.ctl u.traffic.ctl)
              ∧ let noted : State := { s with passes := s.passes.set p (u.pass p) }
                let lost := t.value = 0
                  ∧ (openAboveTolerance s.view p c = true ∨ hasIssued s.traffic (.gate p c) .nonSafe = true)
                let forced := if lost then afterForcing (.gate p c) .wagon noted else noted
                u = if u.pass p = x then forced.relayApplied h t else (forced.reportChange p).relayApplied h t)))
  ∧ (∀ (t : Telegram) (n : Nat),
      (t.qual = 0 → reportWetness t = .dry) ∧ (t.qual = 1 → reportWetness t = .damp) ∧ (t.qual = 2 → reportWetness t = .wet)
      ∧ (t.qual ≠ 0 → t.qual ≠ 1 → t.qual ≠ 2 → reportWetness t = .slurry)
      ∧ (∀ w, Wetness.ofCode n = some w ↔ n = w.code) ∧ chuteOf 0 = 0 ∧ chuteOf 1 = 1)
  ∧ ∀ (c : Column) (w : Wetness),
      (c.charges = [] → c.moisten w = c)
      ∧ ∀ head rest, c.charges = head :: rest →
          c.moisten w =
            { c with
              charges := { head with wetness := if head.wetness.code < w.code then w else head.wetness } :: rest }

/-- R97, R99, R104: a GATE_POSITION report sets the gate confirmed state, its Value clamped into 0..100, and trips a
RUNNING or ALERT pass where it shows an uncommanded movement (GATE-MOVED), then where it shows an opening above tolerance over
slurry (MUD-RUSH), each with the report as interrupted telegram; without a cause the alarm record stays. It then reports its
change, where the opening differs from the one held, and reaches the Action Queue as a confirmation candidate (R139), and is
relayed. The rest of the pass, and every other pass, stays as it was. -/
def Obligations.GatePositionReport : Prop :=
  ∀ (t : Telegram) (s : State) (h : Hit), fate .field t s = .report h → h.role = .gatePosition →
    let p := h.pass
    let c := chuteOf h.object
    let opening := min t.value.toInt.toNat 100
    let hist := (s.traffic.history.get p).get c
    let above := gateTolerance s.tables p c < opening
    let moved := above ∧ hasCommandPoint s.tables (.gate p c) = true ∧ hasIssued s.traffic (.gate p c) .nonSafe = false
      ∧ (hist.reference = .closed
          ∨ hist.reference = .unset ∧ ((s.pass p).chutes.get c).gate = none ∧ hist.lastIssued = .closing)
    let rushed := above ∧ ((s.pass p).chutes.get c).moisture = some .slurry
    let noted : Pass :=
      { s.pass p with chutes := (s.pass p).chutes.set c { (s.pass p).chutes.get c with gate := some opening } }
    let kept : State := { s with passes := s.passes.set p noted }
    let tested := if moved then kept.tripCause p .gateMoved (carriedReport t) else kept
    let tested' := if rushed then tested.tripCause p .mudRush (carriedReport t) else tested
    let changed := if ((s.pass p).chutes.get c).gate = some opening then tested' else tested'.reportChange p
    let record := if moved then noted.withTrip .gateMoved s.time (carriedReport t) else noted
    ∃ u, exec (.gatePosition t) s = .next u ∧ reportFrame p s u
      ∧ u = (afterCandidate (.gate p c) changed).relayApplied h t
      ∧ u.pass p = (if rushed then record.withTrip .mudRush s.time (carriedReport t) else record)
      ∧ (u.pass p).mode = (s.pass p).mode.afterTrip (moved ∨ rushed)

/-- R80 to R84: a SIGNAL_STATE report (1 ON, 0 OFF) and a BREAKER_STATE report (0 PARKED, 1 WORKING, 2 FAULT) set the
confirmed state; any other value is ignored. ON over a WORKING breaker, and WORKING under a signal that is ON or has an
ISSUED on, trip a RUNNING or ALERT pass. R89: ON over a FULL grizzly leaves the signal ordered safe, with a FORCED notice of
detail GRIZZLY (6). R142: a FAULT against an ISSUED start fails it, with the report as interrupted telegram, and puts a RUNNING
pass into ALERT. The trips' cause is BREAKER-UNDER-PERMIT with the report; without a cause the alarm record stays. R82: after
its checks the report reports its change, where the state differs from the one held, then reaches the Action Queue as a
confirmation candidate (R139), and is relayed. The rest of the pass, and every other pass, stays as it was. -/
def Obligations.TipPointReports : Prop :=
  ∀ (t : Telegram) (s : State) (h : Hit), fate .field t s = .report h →
    let p := h.pass
    let x := s.pass p
    let n := h.object
    let under (cause : Prop) [Decidable cause] (v : State) : State :=
      if cause then v.tripCause p .breakerUnderPermit (carriedReport t) else v
    let recordUnder (cause : Prop) [Decidable cause] (y : Pass) : Pass :=
      if cause then y.withTrip .breakerUnderPermit s.time (carriedReport t) else y
    (h.role = .signalState →
      (t.value ≠ 0 → t.value ≠ 1 → exec (.signalState t) s = .next (s.relayApplied h t))
      ∧ (t.value = 0 ∨ t.value = 1 →
          let now : SignalState := if t.value = 1 then .isOn else .isOff
          let cause := t.value = 1 ∧ (x.tips.get n).breaker = .working
          let noted : Pass := { x with tips := x.tips.set n { x.tips.get n with signal := now } }
          let checked := under cause { s with passes := s.passes.set p noted }
          let forced := if t.value = 1 ∧ (x.tips.get n).standing = .full then afterForcing (.signal p n) .grizzly checked
            else checked
          let changed := if now = (x.tips.get n).signal then forced else forced.reportChange p
          ∃ u, exec (.signalState t) s = .next u ∧ reportFrame p s u
            ∧ u = (afterCandidate (.signal p n) changed).relayApplied h t
            ∧ u.pass p = recordUnder cause noted
            ∧ (u.pass p).mode = x.mode.afterTrip cause
            ∧ (t.value = 1 → (x.tips.get n).standing = .full → CommandsSound s →
                hasCommandPoint s.tables (.signal p n) = true →
                orderedSafe u.traffic (.signal p n)
                  ∧ announced s.tables (.pass p) .forced 6 s.traffic.ctl u.traffic.ctl)))
    ∧ (h.role = .breakerState →
        (t.value ≠ 0 → t.value ≠ 1 → t.value ≠ 2 → exec (.breakerState t) s = .next (s.relayApplied h t))
        ∧ (t.value = 0 ∨ t.value = 1 →
            let now : BreakerState := if t.value = 1 then .working else .parked
            let cause := t.value = 1
              ∧ ((x.tips.get n).signal = .isOn ∨ hasIssued s.traffic (.signal p n) .nonSafe = true)
            let noted : Pass := { x with tips := x.tips.set n { x.tips.get n with breaker := now } }
            let checked := under cause { s with passes := s.passes.set p noted }
            let changed := if now = (x.tips.get n).breaker then checked else checked.reportChange p
            ∃ u, exec (.breakerState t) s = .next u ∧ reportFrame p s u
              ∧ u = (afterCandidate (.breaker p n) changed).relayApplied h t
              ∧ u.pass p = recordUnder cause noted
              ∧ (u.pass p).mode = x.mode.afterTrip cause)
        ∧ (t.value = 2 →
            let noted : Pass := { x with tips := x.tips.set n { x.tips.get n with breaker := .fault } }
            let kept : State := { s with passes := s.passes.set p noted }
            let changed := if (x.tips.get n).breaker = .fault then kept else kept.reportChange p
            ∃ u, exec (.breakerState t) s = .next u ∧ reportFrame p s u
              ∧ (∀ e, issuedEntry changed.traffic (.breaker p n) = some e → e.direction = .nonSafe →
                  u = (afterFailure e (carriedReport t) changed).relayApplied h t
                    ∧ u.pass p = noted.withAlert .actionFail s.time (carriedReport t))
              ∧ ((∀ e, issuedEntry changed.traffic (.breaker p n) = some e → e.direction = .safe) →
                  u = changed.relayApplied h t ∧ u.pass p = noted)
              ∧ (x.mode ≠ .running → (u.pass p).mode = x.mode)
              ∧ (x.mode = .running → (∀ e, issuedEntry s.traffic (.breaker p n) = some e → e.direction = .nonSafe →
                    (u.pass p).mode = .alert)
                  ∧ ((u.pass p).mode = .running ∨ (u.pass p).mode = .alert))))

/-- R106 to R108: a NOTICE_POST of kind 1 to 3 fills an empty slot, raising POSTED and reporting the change, and is
ignored by a full one, raising IGNORED; any other kind changes nothing. A NOTICE_TAKEN empties a full slot, raising TAKEN
with the kind removed and reporting the change, and leaves an empty one. The report is then relayed. Nothing else
changes. -/
def Obligations.NoticeSlotReports : Prop :=
  (∀ t : Telegram, (t.value = 1 → reportKind t = some .stopDraw) ∧ (t.value = 2 → reportKind t = some .oversize)
    ∧ (t.value = 3 → reportKind t = some .caution) ∧ (t.value ≠ 1 → t.value ≠ 2 → t.value ≠ 3 → reportKind t = none)
    ∧ [SlotKind.stopDraw, .oversize, .caution].map SlotKind.code = [1, 2, 3])
  ∧ ∀ (t : Telegram) (s : State) (h : Hit), fate .field t s = .report h →
    let p := h.pass
    let x := s.pass p
    let slotted (k : Option SlotNotice) : State := { s with passes := s.passes.set p { x with slot := k } }
    (h.role = .noticePost →
      (∀ k, reportKind t = some k →
        (x.slot = none →
          exec (.noticePost t) s = .next
            ((((slotted (some { kind := k, station := t.src, posted := s.time })).raise (.pass p) .slot
              (10 + k.code)).reportChange p).relayApplied h t))
        ∧ (∀ n, x.slot = some n →
            exec (.noticePost t) s = .next ((s.raise (.pass p) .slot (30 + k.code)).relayApplied h t)))
      ∧ (reportKind t = none → exec (.noticePost t) s = .next (s.relayApplied h t)))
    ∧ (h.role = .noticeTaken →
        (∀ n, x.slot = some n →
          exec (.noticeTaken t) s = .next
            ((((slotted none).raise (.pass p) .slot (20 + n.kind.code)).reportChange p).relayApplied h t))
        ∧ (x.slot = none → exec (.noticeTaken t) s = .next (s.relayApplied h t)))

/-- R30: an applied report in FORWARD is relayed as it came, in ABSORB goes no further, and in ANNOTATE is relayed with
the pass condition code that holds after everything the report caused (R3) and a fresh check (R5). -/
def Obligations.AppliedReportIsRelayed : Prop :=
  ∀ (s : State) (h : Hit) (t : Telegram),
    (h.entry.mode = some .forward →
      s.relayApplied h t = { s with traffic := s.traffic.placeControl s.tables { tel := t, cls := .relayed } })
    ∧ (h.entry.mode = some .absorb → s.relayApplied h t = s)
    ∧ (h.entry.mode = some .annotate →
        ∃ tel : Telegram, checkHolds tel = true
          ∧ tel = { t with ann := BitVec.ofNat 8 (conditionCode (s.pass h.pass)), check := tel.check }
          ∧ s.relayApplied h t = { s with traffic := s.traffic.placeControl s.tables { tel := tel, cls := .relayed } })

/-! ### Timers (R16, R61, R132) -/

/-- R16, R154: at the expiry of the line-silence timer it stops, every RUNNING or ALERT pass enters TRIPPED with primary
cause LINE-SILENCE and no interrupted telegram, a TRIPPED pass adds the cause to its secondary set, and passes in
ISOLATED and UNCONFIGURED take no action; whatever the order in which the passes take it. Each pass takes the cause whole, one
after another from the state with the timer stopped (R149, R154), in the order the row names and then, those it does not name,
in number order (that the order is the row's operand is the model's, log entry 6): CausesMoveTheRecord and
TripLeavesSafeCommands say what each does. A stopped timer does not run out (log entry 4). -/
def Obligations.LineSilenceTripsEveryLivePass : Prop :=
  (∀ (order : List PassId) (s : State) (n : Nat), s.silence = some n → s.resetPending = false →
    let taken := order.eraseDups ++ ([0, 1, 2, 3] : List PassId).filter fun p => !order.contains p
    ∃ u, exec (.lineSilenceExpiry order) s = .next u
      ∧ u = taken.foldl (fun v p => v.tripCause p .lineSilence none) { s with silence := none }
      ∧ u = { s with passes := u.passes, traffic := u.traffic, silence := none }
      ∧ ∀ p,
          u.pass p = { s.pass p with mode := (s.pass p).mode.afterTrip True, alarm := (u.pass p).alarm }
          ∧ ((s.pass p).mode.isLive = true →
              (u.pass p).alarm.level = .trip ∧ (u.pass p).alarm.primary = some .lineSilence
                ∧ (u.pass p).alarm.raisedAt = s.time ∧ (u.pass p).alarm.telegram = none)
          ∧ ((s.pass p).mode = .tripped → (u.pass p).alarm = (s.pass p).alarm.join .lineSilence)
          ∧ ((s.pass p).mode.isLive = false → (s.pass p).mode ≠ .tripped → (u.pass p).alarm = (s.pass p).alarm))
  ∧ ∀ (order : List PassId) (s : State), s.silence = none → s.resetPending = false →
      exec (.lineSilenceExpiry order) s = .next s

/-- R61: when the life of a sample runs out the sample becomes stale, the timer stops, and one evaluation of the pass is
made, which hands on a changed band (notice first: log entry 14), or the enabled conditions with no telegram (R73, R76);
nothing else comes of it. R132: when a hold timer runs out the held command is removed and answered EXPIRED with the reason it was held for, and nothing else
changes. A stopped timer does not run out (log entry 4). -/
def Obligations.SampleAndHoldTimersRunOut : Prop :=
  (∀ (p : PassId) (s : State) (n : Nat), (s.pass p).est.life = some n → (s.pass p).mode ≠ .unconfigured →
    s.resetPending = false →
    ∃ u, exec (.sampleStale p) s = .next u ∧ reportFrame p s u
      ∧ let x : Pass := { s.pass p with
          est := { (s.pass p).est with
            sample := (s.pass p).est.sample.map (fun sm => { sm with fresh := false })
            life := none } }
        u.pass p = { x with
          est := x.evaluated (s.params p) false false
          mode := x.stateEvaluated (s.params p) false false
          alarm := (x.afterEvaluation (s.params p) false false s.time none).alarm }
        ∧ u = afterEvaluating p x false false none s)
  ∧ (∀ (p : PassId) (s : State), (s.pass p).est.life = none → s.resetPending = false →
      exec (.sampleStale p) s = .next s)
  ∧ (∀ (a : Actuator) (s : State) (e : HeldEntry), PoolSound s → e ∈ s.traffic.pool → e.actuator = a →
      s.resetPending = false →
      exec (.holdExpiry a) s = .next
        { s with
          traffic := Traffic.answer s.tables e.requester .expired e.reason 0
            { s.traffic with pool := s.traffic.pool.filter fun x => !decide (x.actuator = a) } })
  ∧ ∀ (a : Actuator) (s : State), (∀ e ∈ s.traffic.pool, e.actuator ≠ a) → s.resetPending = false →
      exec (.holdExpiry a) s = .next s

/-- R151 to R154: what an alert cause and a trip cause do to the state and the alarm record of their pass, state by
state; and that the entry to ALERT raises an ALERT notice with the cause as detail and is then reported with the standing
check (R123). A trip cause in RUNNING or ALERT is the entry to TRIPPED, which TripLeavesSafeCommands gives whole (R155). A code
that joins the secondary set joins it once; the cause codes are 1 to 13. `withAlert` and `withTrip` are these changes of the
record. -/
def Obligations.CausesMoveTheRecord : Prop :=
  (∀ (p : PassId) (c : Cause) (tel : Option Interrupted) (s : State),
    let x := s.pass p
    let raised (level : AlarmLevel) (secondary : List Cause) : AlarmRecord :=
      { level := level, primary := some c, secondary := secondary, raisedAt := s.time, h := x.est.h, hc := x.est.hc
        hs := x.est.hs, telegram := tel }
    let joined : AlarmRecord := if x.alarm.primary = some c then x.alarm
      else { x.alarm with secondary := insertCause c x.alarm.secondary }
    (x.mode = .running ∨ x.mode = .alert → s.tripCause p c tel = s.enterTripped p c tel)
    ∧ (x.mode = .running →
      (s.alertCause p c tel).pass p = { x with mode := .alert, alarm := raised .alert [] }
      ∧ (let entered : State := { s with passes := s.passes.set p { x with mode := .alert, alarm := raised .alert [] } }
        s.alertCause p c tel = (entered.raise (.pass p) .alert c.code).reportStandingChange p)
      ∧ (s.tripCause p c tel).pass p = { x with mode := .tripped, alarm := raised .trip [] })
    ∧ (x.mode = .alert →
        s.alertCause p c tel = { s with passes := s.passes.set p { x with alarm := joined } }
        ∧ ∀ old, x.alarm.primary = some old →
            (s.tripCause p c tel).pass p =
              { x with mode := .tripped, alarm := raised .trip (insertCause old x.alarm.secondary) })
    ∧ (x.mode = .tripped →
        s.alertCause p c tel = { s with passes := s.passes.set p { x with alarm := joined } }
        ∧ s.tripCause p c tel = { s with passes := s.passes.set p { x with alarm := joined } })
    ∧ (x.mode = .isolated ∨ x.mode = .unconfigured → s.alertCause p c tel = s ∧ s.tripCause p c tel = s)
    ∧ (s.alertCause p c tel).pass p = x.withAlert c s.time tel ∧ (s.tripCause p c tel).pass p = x.withTrip c s.time tel
    ∧ x.alarm.join c = joined)
  ∧ (∀ (c : Cause) (l : List Cause), (∀ d, d ∈ insertCause c l ↔ d = c ∨ d ∈ l)
      ∧ ((l.map Cause.code).Pairwise (· < ·) → ((insertCause c l).map Cause.code).Pairwise (· < ·)))
  ∧ [Cause.overflow, .underflow, .invalid, .divergenceHigh, .divergenceLow, .inexact, .actionFail, .safeFail,
      .breakerUnderPermit, .mudRush, .gateMoved, .lineSilence, .restart].map Cause.code
      = [1, 2, 3, 4, 5, 6, 7, 8, 9, 10, 11, 12, 13]

/-! ### Management requests (R9, R167 to R175) -/

/-- R167, R169, R171: the rows UNKNOWN_REQUEST, READ_ITEM and TABLE_READ. A request code outside 1 to 11 is answered
UNKNOWN; a read is answered DONE with the value of the item or of the stored field, REFUSED-RANGE where there is none.
Nothing changes but what the receipt (R16) and the reply bring. R167: the value of every item, of a pass (1 to 28) and of the
device (29 to 35, which read no pass), and where there is none. R169: the bytes of a reply, and the status codes. -/
def Obligations.ReadsAnswer : Prop :=
  (∀ (t : Telegram) (s : State),
    let answers (c : Instr) (st : Status) (value : Word) : Prop :=
      exec c s = .next (respond t false { state := heard .control s, status := st, value := value })
    (fate .control t s = .request .unknown → answers (.unknownRequest t) .unknown 0)
    ∧ (fate .control t s = .request .readItem →
        (∀ n, t.value = 0 → statusItem s t.qual.toNat (requestPass t) t.ext.toNat = some n →
          answers (.readItem t) .done (BitVec.ofInt 32 n))
        ∧ (t.value ≠ 0 ∨ statusItem s t.qual.toNat (requestPass t) t.ext.toNat = none →
            answers (.readItem t) .refusedRange 0))
    ∧ (∀ f, fate .control t s = .request (.tableRead (some f)) →
        answers (.tableRead t) .done (BitVec.ofInt 32 (s.tables.read f)))
    ∧ (fate .control t s = .request (.tableRead none) → answers (.tableRead t) .refusedRange 0))
  ∧ (∀ (s : State) (p : PassId),
      let x := s.pass p
      let item (code index : Nat) : Option Int := statusItem s code (some p) index
      let flag (b : Bool) (weight : Int) : Int := if b then weight else 0
      (∀ k, item 6 k = some
          (flag x.est.causes.i 1 + flag x.est.causes.o 2 + flag x.est.causes.u 4 + flag x.est.causes.v 8
            + (match x.est.causes.g with
                | none => 0
                | some .high => 16
                | some .low => 48)))
      ∧ (∀ k, item 7 k = some
          (flag x.est.sticky.i 1 + flag x.est.sticky.o 2 + flag x.est.sticky.u 4 + flag x.est.sticky.v 8
            + flag x.est.sticky.g 16))
      ∧ (x.est.sample = none → ∀ k, item 8 k = if k ≤ 3 then some (-1) else none)
      ∧ (∀ sm, x.est.sample = some sm → ∀ k, item 8 k =
          ([(sm.distance : Int), (match sm.quality with
            | .good => 0
            | .uncertain => 1
            | .bad => 2), (if sm.fresh then 0 else 1), (if sm.inexact then 1 else 0)] : List Int)[k]?)
      ∧ (let r := x.alarm
        let carried (f : Interrupted → Int) : Int := (r.telegram.map f).getD (-1)
        ∀ k, item 10 k =
          ([(match r.level with
            | .quiet => 0
            | .alert => 1
            | .trip => 2), (match r.primary with
            | none => 0
            | some c => (c.code : Int)), ((((r.secondary.map fun c => 2 ^ (c.code - 1)).sum : Nat)) : Int),
            (r.raisedAt.toNat : Int), (r.h : Int), (r.hc : Int), (r.hs : Int), (if r.telegram.isSome then 1 else 0),
            carried fun x => x.src.toNat, carried fun x => x.kind.toNat, carried fun x => x.point.toNat,
            carried fun x => x.tag.toNat, carried fun x => x.value.toInt] : List Int)[k]?)
      ∧ (∀ n field, field < 10 →
          (x.column.charges.length ≤ n → item 14 (10 * n + field) = none)
          ∧ ∀ c, x.column.charges[n]? = some c → item 14 (10 * n + field) =
              ([(c.number.toNat : Int), (match c.origin with
                | .tip t => (t.val : Int)
                | .grizzly t => 10 + (t.val : Int)
                | .survey => 20), (c.placed : Int), (c.remaining : Int), (c.wetness.code : Int),
                (if c.oversize then 1 else 0), (c.placedAt.toNat : Int), (match c.merge with
                | none => 0
                | some m => (m.count : Int)), (match c.merge with
                | none => -1
                | some m => (m.latest.toNat : Int))] : List Int)[field]?)
      ∧ (∀ k, item 23 k =
          match x.slot with
          | none => [(0 : Int), -1, -1][k]?
          | some n => [(n.kind.code : Int), (n.station.toNat : Int), (n.posted.toNat : Int)][k]?)
      ∧ (∀ k, item 1 k = some (conditionCode x : Int) ∧ item 2 k = some (x.est.band.code : Int)
          ∧ item 3 k = some (x.est.h : Int) ∧ item 4 k = some (x.est.hc : Int) ∧ item 5 k = some (x.est.hs : Int)
          ∧ item 9 k = some (if x.column.surveyed then 1 else 0) ∧ item 11 k = some (x.column.charges.length : Int)
          ∧ item 12 k = some (((x.column.charges.map Charge.remaining).sum : Nat) : Int)
          ∧ item 13 k = some (((x.column.charges.head?.map Charge.remaining).getD 0 : Nat) : Int)
          ∧ item 18 k = some (x.column.base : Int) ∧ item 19 k = some (x.column.tipped : Int)
          ∧ item 20 k = some (x.column.drawn : Int) ∧ item 21 k = some (x.column.shortfall : Int)
          ∧ item 22 k = some (x.column.spill : Int))
      ∧ (∀ n : TipId,
          let r := x.tips.get n
          item 15 n.val = some ((x.column.accums.get n).tonnage : Int)
          ∧ item 16 n.val = some ((x.column.accums.get n).wetness.code : Int)
          ∧ item 17 n.val = some (if r.standing = .full then 1 else 0)
          ∧ item 27 n.val = some (match r.signal with
              | .unknown => -1
              | .isOn => 1
              | .isOff => 0)
          ∧ item 28 n.val = some (match r.breaker with
              | .unknown => -1
              | .parked => 0
              | .working => 1
              | .fault => 2))
      ∧ (∀ c : ChuteId,
          let r := x.chutes.get c
          item 24 c.val = some (match r.gate with
              | none => -1
              | some g => (g : Int))
          ∧ item 25 c.val = some (match r.wagon with
              | .unknown => -1
              | .present => 1
              | .absent => 0)
          ∧ item 26 c.val = some (match r.moisture with
              | none => -1
              | some w => (w.code : Int)))
      ∧ (∀ code k, code ∈ [15, 16, 17, 27, 28] → 3 ≤ k → item code k = none)
      ∧ (∀ code k, code ∈ [24, 25, 26] → 2 ≤ k → item code k = none)
      ∧ (∀ k, item 0 k = none) ∧ ∀ code k, code ≤ 28 → statusItem s code none k = none)
  ∧ (∀ (s : State) (o : Option PassId),
      let item (code index : Nat) : Option Int := statusItem s code o index
      (∀ q : PassId, item 29 q.val = some ((s.traffic.actions.filter fun e => decide (e.actuator.pass = q)).length : Int)
        ∧ item 30 q.val = some ((s.traffic.pool.filter fun e => decide (e.actuator.pass = q)).length : Int))
      ∧ item 29 4 = some (s.traffic.actions.length : Int) ∧ item 30 4 = some (s.traffic.pool.length : Int)
      ∧ (∀ k, 5 ≤ k → item 29 k = none ∧ item 30 k = none)
      ∧ (∀ k, item 31 k = [if s.traffic.ctl.port.overrun then (1 : Int) else 0, if s.traffic.field.overrun then 1 else 0][k]?)
      ∧ (∀ k, item 32 k = some (if s.resetCause = .powerOn then 1 else 2) ∧ item 33 k = some (s.time.toNat : Int)
          ∧ item 35 k = some (if s.bar then 1 else 0))
      ∧ (∀ k, item 34 k =
          match s.pendingIsolation with
          | none => [(0 : Int), -1, -1][k]?
          | some i => [(1 : Int), (i.pass.val : Int), (i.station.toNat : Int)][k]?)
      ∧ ∀ code k, 35 < code → item code k = none)
  ∧ (∀ (t : Telegram) (endsInReset : Bool) (r : Reply),
      respond t endsInReset r =
        { r.state with
          traffic := r.state.traffic.placeControl r.state.tables
            { tel := withCheck
                { dest := t.src, src := r.state.tables.device.ownStation, kind := 6, point := t.point, tag := t.tag
                  qual := r.status.code, ann := 0, table := t.table, value := r.value, ext := 0, check := 0 }
              cls := .reply endsInReset } })
  ∧ (∀ s : State, done s = { state := s, status := .done, value := 0 })
  ∧ [Status.done, .refusedState, .refusedRange, .refusedBarred, .busy, .unknown, .refusedPort, .duplicate, .notAlert].map
      Status.code = [0, 1, 2, 3, 4, 5, 6, 7, 8]

/-- R16, R169, R172: the rows WRITE_ENTRY and WRITE_LINE_SILENCE_TIME. A write is refused for its state, then for its
value; an accepted one stores the value in its field and changes nothing else, but that a write of the line-silence time
starts the line-silence timer with the new value, or stops it. An addressing that R171 does not list is answered
REFUSED-RANGE. R172: a per-pass table is written while its pass is UNCONFIGURED or ISOLATED, a device-wide one while every pass
is. R18, R41, R56, R87, R105, R111, R164, R171: the range of each field. -/
def Obligations.WritesStoreTheirField : Prop :=
  (∀ (t : Telegram) (s : State),
    let x := t.value.toInt
    let answers (c : Instr) (st : Status) (u : State) : Prop :=
      exec c s = .next (respond t false { state := u, status := st, value := 0 })
    let got := heard .control s
    (fate .control t s = .request (.writeEntry none) → answers (.writeEntry t) .refusedRange got)
    ∧ (∀ f, fate .control t s = .request (.writeEntry (some f)) →
        (writeAllowed s f = false → answers (.writeEntry t) .refusedState got)
        ∧ (writeAllowed s f = true → inRange x f = false → answers (.writeEntry t) .refusedRange got)
        ∧ (writeAllowed s f = true → inRange x f = true →
            answers (.writeEntry t) .done { got with tables := s.tables.write x.toNat f }))
    ∧ (fate .control t s = .request .writeLineSilenceTime →
        (noneInService s = false → answers (.writeLineSilenceTime t) .refusedState got)
        ∧ (noneInService s = true → x < 0 ∨ 600 < x → answers (.writeLineSilenceTime t) .refusedRange got)
        ∧ (noneInService s = true → 0 ≤ x → x ≤ 600 →
            answers (.writeLineSilenceTime t) .done
              { got with
                tables := { s.tables with device := { s.tables.device with silenceTime := x.toNat } }
                silence := startedSilence x.toNat })))
  ∧ (∀ s : State,
      let resting (p : PassId) : Prop := (s.pass p).mode = .unconfigured ∨ (s.pass p).mode = .isolated
      (noneInService s = true ↔ ∀ p, resting p)
      ∧ (∀ f, (∃ i sel, f = .point i sel) ∨ (∃ sel, f = .device sel) ∨ (∃ c, f = .noticeEnable c)
            ∨ (∃ c, f = .noticePriority c) → (writeAllowed s f = true ↔ ∀ p, resting p))
      ∧ ∀ p f, (∃ sel, f = .param p sel) ∨ (∃ r c, f = .cell p r c) ∨ (∃ r, f = .holdTime p r) ∨ (∃ w, f = .opening p w)
            ∨ (∃ n, f = .grizzly p n) → (writeAllowed s f = true ↔ resting p))
  ∧ let ranges (f : TableField) (least greatest : Int) : Prop := ∀ x, inRange x f = true ↔ least ≤ x ∧ x ≤ greatest
    (∀ i, ranges (.point i .valid) 0 1 ∧ ranges (.point i .station) 1 253 ∧ ranges (.point i .point) 0 63
      ∧ ranges (.point i .role) 1 14 ∧ ranges (.point i .pass) 0 3 ∧ ranges (.point i .object) 0 2
      ∧ ranges (.point i .mode) 0 2 ∧ ranges (.point i .scaleNum) 1 1000 ∧ ranges (.point i .scaleDen) 1 1000
      ∧ ranges (.point i .response) 10 1200 ∧ ranges (.point i .tolerance) 1 10)
    ∧ ranges (.device .ownStation) 1 253 ∧ ranges (.device .noticeStation) 1 253 ∧ ranges (.device .silenceTime) 0 600
    ∧ (∀ c, ranges (.noticeEnable c) 0 1 ∧ ranges (.noticePriority c) 0 1)
    ∧ ∀ p,
        ranges (.param p .configured) 0 1 ∧ ranges (.param p .len) 100 6000 ∧ ranges (.param p .area) 100 5000
        ∧ ranges (.param p .sensorOffset) 0 500 ∧ (∀ w, ranges (.param p (.density w)) 100 400)
        ∧ ranges (.param p .rounding) 0 2 ∧ ranges (.param p .columnWeight) 0 15 ∧ ranges (.param p .sensorWeight) 0 15
        ∧ ranges (.param p .divergenceLimit) 1 1000 ∧ ranges (.param p .staleTime) 10 6000
        ∧ ranges (.param p .cushion) 0 5999 ∧ ranges (.param p .highFill) 0 5999 ∧ ranges (.param p .hysteresis) 0 100
        ∧ ranges (.param p .residue) 0 100 ∧ ranges (.param p .enableI) 0 1 ∧ ranges (.param p .enableO) 0 1
        ∧ ranges (.param p .enableU) 0 1 ∧ ranges (.param p .enableV) 0 1 ∧ ranges (.param p .enableG) 0 1
        ∧ (∀ r, ranges (.holdTime p r) 0 6000) ∧ (∀ w, ranges (.opening p w) 0 100) ∧ (∀ n, ranges (.grizzly p n) 0 60000)
        ∧ ∀ x r c, inRange x (.cell p r c) = true ↔
            x = 0 ∨ x = 200 ∨ x = 201 ∨ r = .gateOpen ∧ 1 ≤ x ∧ x ≤ 99

/-- R21 to R24: the rows WRITE_VALID and WRITE_POINT_FIELD while no pass is in service and the value is in the range of
the field (otherwise REFUSED-STATE, then REFUSED-RANGE). Nothing but the one entry changes. That a write which would
leave a valid entry as it is changes nothing and is not answered BUSY is log entry 11. R18, R21, R22: the value a write stores in
each field; when an entry is complete, and the defaults it then takes; the blank entry. R23, R24: when an entry is a duplicate,
and when it is busy. -/
def Obligations.PointTableWrites : Prop :=
  (∀ (tb : Tables) (s : State) (i : Fin 128) (e : PointEntry),
    let passLevel (r : Role) : Prop := r = .level ∨ r = .noticePost ∨ r = .noticeTaken
    let chute (r : Role) : Prop := r = .gateSet ∨ r = .gatePosition ∨ r = .wagon ∨ r = .draw ∨ r = .chuteMoisture
    (objectFits e = true ↔ ∃ r, e.role = some r ∧ (passLevel r ∨ ∃ o, e.object = some o ∧ (chute r → o.val ≤ 1)))
    ∧ (isComplete e = true ↔
        (∃ x, e.station = some x) ∧ (∃ x, e.point = some x) ∧ (∃ x, e.pass = some x) ∧ objectFits e = true)
    ∧ madeValid e = { e with
        valid := true
        mode := some (e.mode.getD .forward)
        scaleNum := some (e.scaleNum.getD 1)
        scaleDen := some (e.scaleDen.getD 1)
        response := some (e.response.getD 100)
        tolerance := some (e.tolerance.getD 3) }
    ∧ blankPoint =
        { valid := false, station := none, point := none, role := none, pass := none, object := none, mode := none
          scaleNum := none, scaleDen := none, response := none, tolerance := none }
    ∧ (∀ f, pointsClash e f = true ↔
        e.station = f.station ∧ e.point = f.point
          ∨ e.role = f.role ∧ e.pass = f.pass ∧ ((∃ r, e.role = some r ∧ passLevel r) ∨ e.object = f.object))
    ∧ (isDuplicate tb i e = true ↔
        ∃ j : Fin 128, j ≠ i ∧ (tb.points.get j).valid = true ∧ pointsClash e (tb.points.get j) = true)
    ∧ (pointBusy s e = true ↔ ∃ p, e.pass = some p ∧ passBusy s.traffic p = true)
    ∧ (∀ sel : PointSel,
        sel.isRouting = true ↔ sel = .station ∨ sel = .point ∨ sel = .role ∨ sel = .pass ∨ sel = .object)
    ∧ ∀ n : Nat,
        e.write n .station = { e with station := some (BitVec.ofNat 8 n) }
        ∧ e.write n .point = { e with point := some (BitVec.ofNat 8 n) }
        ∧ e.write n .role = { e with role :=
            [Role.gateSet, .signalSet, .breakerSet, .gatePosition, .wagon, .draw, .chuteMoisture, .level, .tip, .signalState,
              .breakerState, .grizzlyClear, .noticePost, .noticeTaken].find? fun r => decide (r.code = n) }
        ∧ e.write n .pass = { e with pass := ([0, 1, 2, 3] : List PassId)[n]? }
        ∧ e.write n .object = { e with object := ([0, 1, 2] : List (Fin 3))[n]? }
        ∧ e.write n .mode = { e with mode := [HandlingMode.forward, .annotate, .absorb][n]? }
        ∧ e.write n .scaleNum = { e with scaleNum := some n } ∧ e.write n .scaleDen = { e with scaleDen := some n }
        ∧ e.write n .response = { e with response := some n } ∧ e.write n .tolerance = { e with tolerance := some n })
  ∧ ([Role.gateSet, .signalSet, .breakerSet, .gatePosition, .wagon, .draw, .chuteMoisture, .level, .tip, .signalState,
      .breakerState, .grizzlyClear, .noticePost, .noticeTaken].map Role.code = [1, 2, 3, 4, 5, 6, 7, 8, 9, 10, 11, 12, 13, 14]
    ∧ ∀ r : Role, r.isCommand = true ↔ r = .gateSet ∨ r = .signalSet ∨ r = .breakerSet)
  ∧ ∀ (t : Telegram) (s : State) (i : Fin 128),
    let x := t.value.toInt
    let e := s.tables.points.get i
    let got := heard .control s
    let answers (c : Instr) (st : Status) (u : State) : Prop :=
      exec c s = .next (respond t false { state := u, status := st, value := 0 })
    let stored (f : PointEntry) : State := { got with tables := { s.tables with points := s.tables.points.set i f } }
    (fate .control t s = .request (.writeValid i) →
      (noneInService s = false → answers (.writeValid t) .refusedState got)
      ∧ (noneInService s = true →
          (x ≠ 0 → x ≠ 1 → answers (.writeValid t) .refusedRange got)
          ∧ (x = 1 → e.valid = true → answers (.writeValid t) .done got)
          ∧ (x = 1 → e.valid = false →
              (isComplete e = false → answers (.writeValid t) .refusedRange got)
              ∧ (isComplete e = true → pointBusy s e = true → answers (.writeValid t) .busy got)
              ∧ (isComplete e = true → pointBusy s e = false →
                  (isDuplicate s.tables i e = true → answers (.writeValid t) .duplicate got)
                  ∧ (isDuplicate s.tables i e = false → answers (.writeValid t) .done (stored (madeValid e)))))
          ∧ (x = 0 →
              (e.valid = true → pointBusy s e = true → answers (.writeValid t) .busy got)
              ∧ (e.valid = false ∨ pointBusy s e = false → answers (.writeValid t) .done (stored blankPoint)))))
    ∧ ∀ sel, fate .control t s = .request (.writePointField i sel) →
        let e' := e.write x.toNat sel
        (noneInService s = false → answers (.writePointField t) .refusedState got)
        ∧ (noneInService s = true → inRange x (.point i sel) = false → answers (.writePointField t) .refusedRange got)
        ∧ (noneInService s = true → inRange x (.point i sel) = true →
            (e.valid = false → answers (.writePointField t) .done (stored e'))
            ∧ (e.valid = true → e' = e → answers (.writePointField t) .done got)
            ∧ (e.valid = true → e' ≠ e →
                (objectFits e' = false → answers (.writePointField t) .refusedRange got)
                ∧ (objectFits e' = true → pointBusy s e = true ∨ pointBusy s e' = true →
                    answers (.writePointField t) .busy got)
                ∧ (objectFits e' = true → pointBusy s e = false → pointBusy s e' = false →
                    (sel.isRouting = true ∧ isDuplicate s.tables i e' = true → answers (.writePointField t) .duplicate got)
                    ∧ (sel.isRouting = false ∨ isDuplicate s.tables i e' = false →
                        answers (.writePointField t) .done (stored e')))))

/-- R161: the row WRITE_CONFIGURED. An UNCONFIGURED pass is configured into ISOLATED with its mark set; an ISOLATED pass
that holds no Action Queue entry becomes UNCONFIGURED, its mark cleared and all of it at the values after power-on, the movement
histories of its gates among them; each change of pass state is reported; a write of the value held changes nothing. R77: the row
WRITE_L stores L and, in an ISOLATED pass, sets the stored figures to 0 and EMPTY; where the band was not EMPTY it raises BAND
with detail 0 and reports the change with the standing check, which does not run in ISOLATED (that the notice comes before the
report is log entry 14). R87, R88: the row WRITE_GRIZZLY_LIMIT stores the limit and sets the standing against it, for an
UNCONFIGURED pass without any report; in an ISOLATED pass a crossing either way is reported, and one to FULL, the signal
confirmed ON or with an on in hand, forces the signal off first: it is then ordered safe, with a FORCED notice of detail GRIZZLY
(6). -/
def Obligations.PassWrites : Prop :=
  ∀ (t : Telegram) (s : State) (p : PassId),
    let x := t.value.toInt
    let y := s.pass p
    let got := heard .control s
    let refused (c : Instr) (st : Status) : Prop :=
      exec c s = .next (respond t false { state := got, status := st, value := 0 })
    let stored (tb : Tables) (x' : Pass) : State := { got with tables := tb, passes := s.passes.set p x' }
    let carriedOut (c : Instr) (tb : Tables) (x' : Pass) (v : State) : Prop :=
      exec c s = .next (respond t false (done v)) ∧ elsewhere p s v ∧ v.pass p = x'
        ∧ v = { got with tables := tb, passes := v.passes, traffic := v.traffic }
    (∀ limit tonnage, standingOf limit tonnage = if 0 < limit ∧ limit ≤ tonnage then .full else .below)
    ∧ (passBusy s.traffic p = true ↔ ∃ e ∈ s.traffic.actions, e.actuator.pass = p)
    ∧ (fate .control t s = .request (.writeConfigured p) →
      (y.mode.inService = true → refused (.writeConfigured t) .refusedState)
      ∧ (y.mode.inService = false → x ≠ 0 → x ≠ 1 → refused (.writeConfigured t) .refusedRange)
      ∧ (y.mode = .unconfigured → x = 1 →
          let tb := { s.tables with
            params := s.tables.params.set p { s.params p with configured := true }
            marks := s.tables.marks.set p true }
          let isolated : Pass := { y with mode := .isolated }
          carriedOut (.writeConfigured t) tb isolated ((stored tb isolated).reportChange p))
      ∧ (y.mode = .unconfigured ∧ x = 0 ∨ y.mode = .isolated ∧ x = 1 → refused (.writeConfigured t) .done)
      ∧ (y.mode = .isolated → x = 0 →
          (passBusy s.traffic p = true → refused (.writeConfigured t) .busy)
          ∧ (passBusy s.traffic p = false →
              let tb := { s.tables with
                params := s.tables.params.set p { s.params p with configured := false }
                marks := s.tables.marks.set p false }
              let forgotten : GateHistory := { reference := .unset, lastIssued := .unset }
              carriedOut (.writeConfigured t) tb (clearedPass .unconfigured)
                (State.reportChange p
                  { stored tb (clearedPass .unconfigured) with
                    traffic := { s.traffic with history := s.traffic.history.set p ⟨forgotten, forgotten⟩ } }))))
    ∧ (fate .control t s = .request (.writeL p) →
        (y.mode.inService = true → refused (.writeL t) .refusedState)
        ∧ (y.mode.inService = false → x < 100 ∨ 6000 < x → refused (.writeL t) .refusedRange)
        ∧ (100 ≤ x → x ≤ 6000 →
            let tb := { s.tables with params := s.tables.params.set p { s.params p with len := x.toNat } }
            (y.mode = .unconfigured → carriedOut (.writeL t) tb y { got with tables := tb })
            ∧ (y.mode = .isolated →
                let emptied : Pass := { y with est := { y.est with h := 0, hc := 0, hs := 0, band := .empty } }
                carriedOut (.writeL t) tb emptied
                  (if y.est.band = .empty then stored tb emptied
                  else ((stored tb emptied).raise (.pass p) .band 0).reportStandingChange p))))
    ∧ ∀ n, fate .control t s = .request (.writeGrizzlyLimit p n) →
        (y.mode.inService = true → refused (.writeGrizzlyLimit t) .refusedState)
        ∧ (y.mode.inService = false → x < 0 ∨ 60000 < x → refused (.writeGrizzlyLimit t) .refusedRange)
        ∧ (y.mode.inService = false → 0 ≤ x → x ≤ 60000 →
            let tb := { s.tables with grizzly := s.tables.grizzly.set p ((s.tables.grizzly.get p).set n x.toNat) }
            let r := y.tips.get n
            let now : Standing := if 0 < x ∧ x ≤ (y.column.accums.get n).tonnage then .full else .below
            let following : Pass := { y with tips := y.tips.set n { r with standing := now } }
            let forced := if now = .full ∧ (r.signal = .isOn ∨ hasNonSafe s.traffic (.signal p n) = true) then
                afterForcing (.signal p n) .grizzly (stored tb following)
              else stored tb following
            carriedOut (.writeGrizzlyLimit t) tb following
              (if y.mode = .unconfigured ∨ now = r.standing then stored tb following else forced.reportChange p)
            ∧ (y.mode = .isolated → now = .full → r.standing = .below →
                r.signal = .isOn ∨ hasNonSafe s.traffic (.signal p n) = true →
                hasCommandPoint s.tables (.signal p n) = true → CommandsSound s →
                ∃ u, exec (.writeGrizzlyLimit t) s = .next u ∧ orderedSafe u.traffic (.signal p n)
                  ∧ announced s.tables (.pass p) .forced 6 s.traffic.ctl u.traffic.ctl))

/-- R160, R173: the isolation sequence. With the bar set both requests are answered REFUSED-BARRED; a pass above 3 is out
of range; a request records its pass and station; a confirm that does not match what is pending sets the bar; a matched
confirm clears it, and is then answered REFUSED-STATE, BUSY or DONE by the pass, which on DONE is ISOLATED with its mark
set, its record at level NONE and none of its commands held: they are purged, each answered REFUSED with TRIP and Value 0 in
arrival order (R133), and the change of pass state is then reported without standing check. R158: when a pass is at rest. -/
def Obligations.IsolationTakesTwoSteps : Prop :=
  (∀ (t : Telegram) (s : State),
    let got := heard .control s
    let answers (c : Instr) (st : Status) (u : State) : Prop :=
      exec c s = .next (respond t false { state := u, status := st, value := 0 })
    (fate .control t s = .request .isolateRequest →
      (s.bar = true → answers (.isolateRequest t) .refusedBarred got)
      ∧ (s.bar = false → requestPass t = none → answers (.isolateRequest t) .refusedRange got)
      ∧ (∀ p, s.bar = false → requestPass t = some p →
          answers (.isolateRequest t) .done { got with pendingIsolation := some { pass := p, station := t.src } }))
    ∧ (fate .control t s = .request .isolateConfirm →
        (s.bar = true → answers (.isolateConfirm t) .refusedBarred got)
        ∧ (s.bar = false → requestPass t = none → answers (.isolateConfirm t) .refusedRange got)
        ∧ (∀ p, s.bar = false → requestPass t = some p →
            let cleared := { got with pendingIsolation := none }
            (s.pendingIsolation ≠ some { pass := p, station := t.src } →
              answers (.isolateConfirm t) .refusedBarred { cleared with bar := true })
            ∧ (s.pendingIsolation = some { pass := p, station := t.src } →
                ((s.pass p).mode.inService = false → answers (.isolateConfirm t) .refusedState cleared)
                ∧ ((s.pass p).mode.inService = true → atRest s.view s.traffic p = false →
                    answers (.isolateConfirm t) .busy cleared)
                ∧ ((s.pass p).mode.inService = true → atRest s.view s.traffic p = true →
                    let isolated : Pass := { s.pass p with
                      mode := .isolated, alarm := { (s.pass p).alarm with level := .quiet } }
                    ∃ v, answers (.isolateConfirm t) .done v ∧ elsewhere p s v
                      ∧ v = State.reportChange p
                        { cleared with
                          passes := s.passes.set p isolated
                          traffic := withoutHeld s.tables p s.traffic
                          tables := { s.tables with marks := s.tables.marks.set p true } }
                      ∧ v = { cleared with
                        passes := v.passes
                        traffic := v.traffic
                        tables := { s.tables with marks := s.tables.marks.set p true } }
                      ∧ v.pass p = isolated
                      ∧ ∀ e ∈ v.traffic.pool, e.actuator.pass ≠ p)))))
  ∧ ∀ (v : View) (tr : Traffic) (p : PassId),
      let x := v.passes.get p
      atRest v tr p = true ↔
        (∀ c : ChuteId, hasCommandPoint v.tables (.gate p c) = true →
          (∃ g, (x.chutes.get c).gate = some g ∧ g ≤ gateTolerance v.tables p c) ∧ lineOf tr (.gate p c) = [])
        ∧ (∀ n : TipId, hasCommandPoint v.tables (.signal p n) = true →
          (x.tips.get n).signal = .isOff ∧ lineOf tr (.signal p n) = [])
        ∧ ∀ n : TipId, hasCommandPoint v.tables (.breaker p n) = true →
          (x.tips.get n).breaker = .parked ∧ lineOf tr (.breaker p n) = []

/-- R57, R157, R160: the rows RESTORE and ACKNOWLEDGE. A RESTORE returns an ISOLATED pass with consistent parameters to
RUNNING, clears its mark and reports the change; an ACKNOWLEDGE returns a pass in ALERT to RUNNING with its record at level
NONE and reports the change with the standing check. Each then brings one evaluation. Where that finds no enabled condition
the alarm record keeps every other field; where it finds some, the pass enters ALERT again and the first raises the record
anew (R152), with no telegram, the others joining its secondary set. A changed band raises its notice before it is reported
(log entry 14). -/
def Obligations.PassesReturnToService : Prop :=
  ∀ (t : Telegram) (s : State),
    let got := heard .control s
    let refused (c : Instr) (st : Status) : Prop :=
      exec c s = .next (respond t false { state := got, status := st, value := 0 })
    let returned (c : Instr) (p : PassId) (standing : Bool) (tb : Tables) (x : Pass) : Prop :=
      let moved : State := { got with tables := tb, passes := s.passes.set p x }
      let reported := if standing then moved.reportStandingChange p else moved.reportChange p
      let causes := enabledCauses (s.params p) (findings (s.params p) x false false).causes
      ∃ v, exec c s = .next (respond t false (done v)) ∧ elsewhere p s v
        ∧ v = { got with tables := tb, passes := v.passes, traffic := v.traffic }
        ∧ v.pass p = { x with
          est := x.evaluated (s.params p) false false
          mode := x.stateEvaluated (s.params p) false false
          alarm := (v.pass p).alarm }
        ∧ (causes = [] → (v.pass p).alarm = x.alarm)
        ∧ (∀ first rest, causes = first :: rest →
            (v.pass p).alarm = rest.foldl AlarmRecord.join
              { level := .alert, primary := some first, secondary := [], raisedAt := s.time, h := x.est.h
                hc := x.est.hc, hs := x.est.hs, telegram := none })
        ∧ v = afterEvaluating p x false false none reported
    (fate .control t s = .request .restore →
      (requestPass t = none → refused (.restore t) .refusedRange)
      ∧ ∀ p, requestPass t = some p →
          ((s.pass p).mode ≠ .isolated → refused (.restore t) .refusedState)
          ∧ ((s.pass p).mode = .isolated → (s.params p).len < (s.params p).cushion + (s.params p).highFill + 2 →
              refused (.restore t) .refusedRange)
          ∧ ((s.pass p).mode = .isolated → (s.params p).cushion + (s.params p).highFill + 2 ≤ (s.params p).len →
              returned (.restore t) p false { s.tables with marks := s.tables.marks.set p false }
                { s.pass p with mode := .running }))
    ∧ (fate .control t s = .request .acknowledge →
        (requestPass t = none → refused (.acknowledge t) .refusedRange)
        ∧ ∀ p, requestPass t = some p →
            ((s.pass p).mode ≠ .alert → refused (.acknowledge t) .notAlert)
            ∧ ((s.pass p).mode = .alert →
                returned (.acknowledge t) p true s.tables
                  { s.pass p with mode := .running, alarm := { (s.pass p).alarm with level := .quiet } }))

/-- R159, R51: the row PASS_RESET. A pass in service that is not at rest is answered BUSY, an UNCONFIGURED pass
REFUSED-STATE; otherwise the cause set, the sticky flags, the column with its accumulators, totals and counter, and the
slot are cleared, the record's level becomes NONE, a pass in ALERT or TRIPPED becomes RUNNING, and one evaluation is
made; the record keeps its other fields unless the evaluation raises it anew (R152). In the order of R159: the change of state
is reported, a full slot is emptied with a SLOT notice of event CLEARED (40 plus the kind) and reported, and the column change
is completed (orders: log entries 13 and 14). R158 (at rest) is stated with IsolationTakesTwoSteps. R47: the row SURVEY_LOAD.
The column becomes one SURVEY charge of the surveyed tonnage, the four counters 0, Base the tonnage with that of the
accumulators (R50), the column surveyed, and the column change is completed. -/
def Obligations.ColumnRequests : Prop :=
  ∀ (t : Telegram) (s : State),
    let got := heard .control s
    let refused (c : Instr) (st : Status) : Prop :=
      exec c s = .next (respond t false { state := got, status := st, value := 0 })
    let carriedOut (c : Instr) (p : PassId) (x : Pass) (ready : State) : Prop :=
      ∃ v, exec c s = .next (respond t false (done v)) ∧ elsewhere p s v
        ∧ v = { got with passes := v.passes, traffic := v.traffic }
        ∧ columnChanged s.tables p (s.pass p).column false false s.time none x (v.pass p)
        ∧ v = afterColumnChange p x (s.pass p).column false false none ready
    (fate .control t s = .request .passReset →
      (requestPass t = none → refused (.passReset t) .refusedRange)
      ∧ ∀ p, requestPass t = some p →
          let x := s.pass p
          (x.mode = .unconfigured → refused (.passReset t) .refusedState)
          ∧ (x.mode.inService = true → atRest s.view s.traffic p = false → refused (.passReset t) .busy)
          ∧ (x.mode = .isolated ∨ x.mode.inService = true ∧ atRest s.view s.traffic p = true →
              let cleared : Pass := { x with
                est := { x.est with causes := noCauses, sticky := noFlags }
                column := clearedColumn
                alarm := { x.alarm with level := .quiet }
                mode := if x.mode = .isolated then .isolated else .running }
              let moved : State := { got with passes := s.passes.set p cleared }
              let told := if x.mode = .alert ∨ x.mode = .tripped then moved.reportChange p else moved
              let emptied : State :=
                match x.slot with
                | none => told
                | some n =>
                  State.reportChange p
                    (State.raise (.pass p) .slot (40 + n.kind.code)
                      { told with passes := told.passes.set p { cleared with slot := none } })
              carriedOut (.passReset t) p { cleared with slot := none } emptied))
    ∧ (fate .control t s = .request .surveyLoad →
        (requestPass t = none → refused (.surveyLoad t) .refusedRange)
        ∧ ∀ p, requestPass t = some p →
            let x := s.pass p
            let n := t.value.toInt
            (x.mode = .unconfigured → refused (.surveyLoad t) .refusedState)
            ∧ (x.mode ≠ .unconfigured → n < 1 ∨ 60000 < n ∨ 3 < t.qual.toNat → refused (.surveyLoad t) .refusedRange)
            ∧ ∀ w, x.mode ≠ .unconfigured → 1 ≤ n → n ≤ 60000 → Wetness.ofCode t.qual.toNat = some w →
                carriedOut (.surveyLoad t) p
                  { x with
                    column :=
                      { x.column with
                        charges :=
                          [{ number := x.column.counter, origin := .survey, placed := n.toNat, remaining := n.toNat
                             wetness := w, oversize := false, placedAt := s.time, merge := none }]
                        counter := x.column.counter + 1
                        base := n.toNat
                          + ((x.column.accums.get 0).tonnage + (x.column.accums.get 1).tonnage + (x.column.accums.get 2).tonnage)
                        tipped := 0, drawn := 0, shortfall := 0, spill := 0, surveyed := true } }
                  got)

/-- R12, R168: CLEAR_FLAGS clears the sticky flags of a configured pass, or both overrun flags. R174: TIME_SET sets the
time base and nothing else, answered DONE when unicast and not answered when broadcast (R9). R175, R17: DEVICE_RESET is
answered DONE, with the reply that ends in the reset, and both ports then discard what they receive. -/
def Obligations.DeviceRequests : Prop :=
  ∀ (t : Telegram) (s : State),
    let got := heard .control s
    let answers (c : Instr) (st : Status) (u : State) : Prop :=
      exec c s = .next (respond t false { state := u, status := st, value := 0 })
    (fate .control t s = .request .clearFlags →
      (t.table = 4 →
        answers (.clearFlags t) .done
          { got with
            traffic := { s.traffic with
              ctl := { s.traffic.ctl with port := { s.traffic.ctl.port with overrun := false } }
              field := { s.traffic.field with overrun := false } } })
      ∧ (4 < t.table.toNat → answers (.clearFlags t) .refusedRange got)
      ∧ (∀ p, requestPass t = some p →
          ((s.pass p).mode = .unconfigured → answers (.clearFlags t) .refusedState got)
          ∧ ((s.pass p).mode ≠ .unconfigured →
              answers (.clearFlags t) .done
                { got with
                  passes := s.passes.set p
                    { s.pass p with
                      est := { (s.pass p).est with
                        sticky := { i := false, o := false, u := false, v := false, g := false } } } })))
    ∧ (fate .control t s = .request .timeSet → answers (.timeSet t) .done { got with time := t.value })
    ∧ (fate .control t s = .broadcast → t.kind = 5 → t.point = 10 →
        exec (.timeSet t) s = .next
          { got with
            time := t.value
            traffic := s.traffic.placeField s.tables { tel := t, cls := .relayed } })
    ∧ (fate .control t s = .request .deviceReset →
        exec (.deviceReset t) s = .next
          (respond t true { state := { got with resetPending := true }, status := .done, value := 0 }))

/-- R169: a request that is not answered DONE has changed nothing, but for an ISOLATE-CONFIRM, which clears the pending
isolation and may set the bar (R173). Every request received on the Control Port is carried out or refused on the state its
receipt left, and answered with one MRP, that of a DEVICE-RESET ending in the reset (R17); whatever row names its arrival (that
another row than its own deals with a telegram alike is log entry 2). -/
def Obligations.RefusedRequestsChangeNothing : Prop :=
  (∀ (c : Instr) (r : Request) (t : Telegram) (s : State), arrival c = some (.control, t) → fate .control t s = .request r →
    exec c s = .next (respond t (decide (r = .deviceReset)) (requestReply r t (heard .control s))))
  ∧ ∀ (r : Request) (t : Telegram) (s : State), (requestReply r t s).status ≠ .done →
    (r ≠ .isolateConfirm → (requestReply r t s).state = s)
    ∧ (r = .isolateConfirm → (requestReply r t s).state =
        { s with pendingIsolation := (requestReply r t s).state.pendingIsolation
                 bar := (requestReply r t s).state.bar })

/-- R171, R172: an accepted write of a field is read back as the value written, every other field reads as before, and no
isolation mark moves. R171: the coding in which each field is read. -/
def Obligations.WrittenFieldsReadBack : Prop :=
  (∀ (tb : Tables) (f : TableField) (x : Int), inRange x f = true → (∀ i, f ≠ .point i .valid) →
    (tb.write x.toNat f).read f = x ∧ (∀ g, g ≠ f → (tb.write x.toNat f).read g = tb.read g)
      ∧ (tb.write x.toNat f).marks = tb.marks)
  ∧ ∀ (tb : Tables),
      let yes (b : Bool) : Int := if b then 1 else 0
      let coded {α : Type} (o : Option α) (code : α → Nat) : Int :=
        match o with
        | none => -1
        | some x => (code x : Int)
      (∀ i,
        let e := tb.points.get i
        tb.read (.point i .valid) = yes e.valid
        ∧ tb.read (.point i .station) = coded e.station BitVec.toNat ∧ tb.read (.point i .point) = coded e.point BitVec.toNat
        ∧ tb.read (.point i .role) = coded e.role Role.code ∧ tb.read (.point i .pass) = coded e.pass Fin.val
        ∧ tb.read (.point i .object) = coded e.object Fin.val
        ∧ tb.read (.point i .mode) = coded e.mode (fun
            | .forward => 0
            | .annotate => 1
            | .absorb => 2)
        ∧ tb.read (.point i .scaleNum) = coded e.scaleNum id ∧ tb.read (.point i .scaleDen) = coded e.scaleDen id
        ∧ tb.read (.point i .response) = coded e.response id ∧ tb.read (.point i .tolerance) = coded e.tolerance id)
      ∧ tb.read (.device .ownStation) = (tb.device.ownStation.toNat : Int)
      ∧ tb.read (.device .noticeStation) = (tb.device.noticeStation.toNat : Int)
      ∧ tb.read (.device .silenceTime) = (tb.device.silenceTime : Int)
      ∧ (∀ c, tb.read (.noticeEnable c) = yes (tb.notices.get c).enabled
          ∧ tb.read (.noticePriority c) = (if (tb.notices.get c).priority = .high then 1 else 0))
      ∧ (let n := tb.notices
        [NoticeClass.band, .alert, .trip, .actionFail, .forced, .slot, .restart, .overrun].map n.get =
          [n.band, n.alert, n.trip, n.actionFail, n.forced, n.slot, n.restart, n.overrun])
      ∧ ∀ p,
          let pr := tb.params.get p
          let table := tb.interlock.get p
          let row : Row → InterlockRow
            | .gateOpen => table.gateOpen
            | .signalOn => table.signalOn
            | .breakerStart => table.breakerStart
          let cell (c : Cell) : Int :=
            match c with
            | .pass => 0
            | .clamp n => (n : Int)
            | .hold => 200
            | .refuse => 201
          tb.read (.param p .configured) = yes pr.configured ∧ tb.read (.param p .len) = (pr.len : Int)
          ∧ tb.read (.param p .area) = (pr.area : Int) ∧ tb.read (.param p .sensorOffset) = (pr.sensorOffset : Int)
          ∧ (∀ w, tb.read (.param p (.density w)) = ((byWetness pr.density w : Nat) : Int))
          ∧ tb.read (.param p .rounding) = (match pr.rounding with
              | .nearest => 0
              | .down => 1
              | .up => 2)
          ∧ tb.read (.param p .columnWeight) = (pr.columnWeight : Int) ∧ tb.read (.param p .sensorWeight) = (pr.sensorWeight : Int)
          ∧ tb.read (.param p .divergenceLimit) = (pr.divergenceLimit : Int)
          ∧ tb.read (.param p .staleTime) = (pr.staleTime : Int) ∧ tb.read (.param p .cushion) = (pr.cushion : Int)
          ∧ tb.read (.param p .highFill) = (pr.highFill : Int) ∧ tb.read (.param p .hysteresis) = (pr.hysteresis : Int)
          ∧ tb.read (.param p .residue) = (pr.residue : Int)
          ∧ tb.read (.param p .enableI) = yes pr.enableI ∧ tb.read (.param p .enableO) = yes pr.enableO
          ∧ tb.read (.param p .enableU) = yes pr.enableU ∧ tb.read (.param p .enableV) = yes pr.enableV
          ∧ tb.read (.param p .enableG) = yes pr.enableG
          ∧ (∀ r, tb.read (.holdTime p r) = ((row r).holdTime : Int)
              ∧ tb.read (.cell p r .empty) = cell (row r).empty ∧ tb.read (.cell p r .low) = cell (row r).low
              ∧ tb.read (.cell p r .normal) = cell (row r).normal ∧ tb.read (.cell p r .high) = cell (row r).high
              ∧ tb.read (.cell p r .full) = cell (row r).full ∧ tb.read (.cell p r .alert) = cell (row r).alert)
          ∧ (∀ w, tb.read (.opening p w) = ((byWetness (tb.openings.get p) w : Nat) : Int))
          ∧ ∀ n, tb.read (.grizzly p n) = ((tb.grizzly.get p).get n : Int)

/-! ### Rules of the whole machine -/

/-- R172: no command changes a stored table of a pass that is in service, nor a device-wide table while any pass is. -/
def Obligations.TablesChangeOutOfServiceOnly : Prop :=
  ∀ (c : Instr) (s u : State), exec c s = .next u →
    (∀ p, (s.pass p).mode.inService = true →
      u.params p = s.params p ∧ u.tables.interlock.get p = s.tables.interlock.get p
        ∧ u.tables.openings.get p = s.tables.openings.get p ∧ u.tables.grizzly.get p = s.tables.grizzly.get p)
    ∧ ((∃ p, (s.pass p).mode.inService = true) →
        u.tables.points = s.tables.points ∧ u.tables.device = s.tables.device ∧ u.tables.notices = s.tables.notices)

/-- R155, R156: a TRIPPED pass stays TRIPPED but for a PASS-RESET, an ISOLATE-CONFIRM or start-up, and a pass in ALERT
stays in ALERT or trips but for these and an ACKNOWLEDGE: whatever the field reports. -/
def Obligations.AlarmedPassesStay : Prop :=
  ∀ (c : Instr) (s u : State) (p : PassId), exec c s = .next u → (∀ cause, ¬startedUp cause s u) →
    (∀ t, arrival c = some (.control, t) → requestPass t = some p →
      requestOf t ≠ .passReset ∧ requestOf t ≠ .isolateConfirm) →
    ((s.pass p).mode = .tripped → (u.pass p).mode = .tripped)
    ∧ ((s.pass p).mode = .alert →
        (∀ t, arrival c = some (.control, t) → requestPass t = some p → requestOf t ≠ .acknowledge) →
        (u.pass p).mode = .alert ∨ (u.pass p).mode = .tripped)

/-- R173: the isolation bar, once set, is cleared by start-up alone; and the pending isolation is moved by the two
isolation requests and start-up alone. -/
def Obligations.IsolationRegistersStand : Prop :=
  ∀ (c : Instr) (s u : State), exec c s = .next u → (∀ cause, ¬startedUp cause s u) →
    (s.bar = true → u.bar = true)
    ∧ ((∀ t, arrival c = some (.control, t) → requestOf t ≠ .isolateRequest ∧ requestOf t ≠ .isolateConfirm) →
        u.pendingIsolation = s.pendingIsolation ∧ u.bar = s.bar)

/-! ### Level arithmetic and columns (R36 to R42, R58, R64 to R68, R74, R75) -/

/-- The stages of an evaluation but for divergence. R63: which sample is usable. R64: the volume of each charge, the column
height, saturated at L. R65: the sensor height, and when the sample is clamped. R66, R67: the weights and the fused estimate,
which lies between 0 and L; where none is formed H keeps its stored value. R63 to R67, R69: exactly when O, U, V and I are
found. -/
def Obligations.EstimateIsTheWeightedMean : Prop :=
  ∀ (pr : PassParams) (x : Pass) (o u : Bool),
    let f := findings pr x o u
    let volume (c : Charge) := roundDiv pr.rounding (100 * c.remaining) (byWetness pr.density c.wetness)
    let rise := roundDiv pr.rounding (100 * (x.column.charges.map fun c => (volume c).1).sum) pr.area
    let columnInexact := (∃ c ∈ x.column.charges, (volume c).2 = true) ∨ rise.2 = true
    let hc := min rise.1 pr.len
    let wc := if x.column.surveyed = true then pr.columnWeight else 0
    let reach := pr.len + pr.sensorOffset
    let usable (sm : Sample) : Prop := x.est.sample = some sm ∧ sm.fresh = true ∧ sm.quality ≠ .bad
    f.hc = hc
    ∧ (∀ sm, usableSample x.est = some sm ↔ usable sm)
    ∧ (∀ sm, usable sm →
      let d := sm.distance
      let hs := if d < pr.sensorOffset then pr.len else if d ≤ reach then reach - d else 0
      let ws := if sm.quality = .good ∧ pr.sensorOffset ≤ d ∧ d ≤ reach then pr.sensorWeight else pr.sensorWeight / 2
      let mean := roundDiv pr.rounding (wc * hc + ws * hs) (wc + ws)
      f.hs = some hs
        ∧ (0 < wc + ws → f.h = some mean.1 ∧ (ws = 0 → f.h = some hc) ∧ (wc = 0 → f.h = some hs))
        ∧ (wc + ws = 0 → f.h = none)
        ∧ (f.causes.o = true ↔ o = true ∨ pr.len < rise.1 ∨ d < pr.sensorOffset)
        ∧ (f.causes.u = true ↔ u = true ∨ reach < d)
        ∧ (f.causes.v = true ↔ wc + ws = 0)
        ∧ (f.causes.i = true ↔ sm.inexact = true ∨ columnInexact ∨ 0 < wc + ws ∧ mean.2 = true))
    ∧ ((∀ sm, ¬usable sm) →
        f.hs = none ∧ (0 < wc → f.h = some hc) ∧ (wc = 0 → f.h = none)
        ∧ (f.causes.o = true ↔ o = true ∨ pr.len < rise.1)
        ∧ (f.causes.u = true ↔ u = true)
        ∧ (f.causes.v = true ↔ wc = 0 ∨ ∃ sm, x.est.sample = some sm ∧ sm.fresh = true ∧ sm.quality = .bad)
        ∧ (f.causes.i = true ↔ columnInexact))
    ∧ (∀ h, f.h = some h → h ≤ pr.len)
    ∧ (f.h = none → (x.evaluated pr o u).h = x.est.h)

/-- R68: divergence. -/
def Obligations.DivergenceComparesTheHeights : Prop :=
  ∀ (pr : PassParams) (x : Pass) (o u : Bool),
    let f := findings pr x o u
    (∀ sm hs, usableSample x.est = some sm → f.hs = some hs → x.column.surveyed = true → sm.quality = .good →
      pr.sensorOffset ≤ sm.distance → sm.distance ≤ pr.len + pr.sensorOffset →
      (f.causes.g = some .high ↔ (pr.divergenceLimit : Int) < hs - f.hc)
      ∧ (f.causes.g = some .low ↔ (pr.divergenceLimit : Int) < f.hc - hs))
    ∧ ((∀ sm, usableSample x.est = some sm → x.column.surveyed = true → sm.quality = .good →
          pr.sensorOffset ≤ sm.distance → pr.len + pr.sensorOffset < sm.distance) → f.causes.g = none)

/-- R74, R75: the raw band of a height, in a pass with consistent parameters too; the band after an update; and that each
stored evaluation brings the stored band up to date from the stored H. R70, R72: what an evaluation leaves of the estimate: the
cause set it found in place of the one before, each sticky flag as it was or set, the sample and its life as they were; and
the figures, stored where no condition found is enabled, otherwise kept. R73: the enabled conditions in the order O, U, V, G,
I, as causes. -/
def Obligations.BandsFollowTheHeight : Prop :=
  (∀ (pr : PassParams) (h : Nat) (current : Band),
      (h = 0 → rawBand pr h = .empty)
      ∧ (h ≠ 0 → h = pr.len → rawBand pr h = .full)
      ∧ (h ≠ 0 → h ≠ pr.len → h ≤ pr.cushion → rawBand pr h = .low)
      ∧ (h ≠ 0 → h ≠ pr.len → pr.cushion < h → (pr.len : Int) - pr.highFill ≤ h → rawBand pr h = .high)
      ∧ (h ≠ 0 → h ≠ pr.len → pr.cushion < h → (h : Int) < (pr.len : Int) - pr.highFill → rawBand pr h = .normal)
      ∧ (pr.cushion + pr.highFill + 2 ≤ pr.len → h ≤ pr.len →
          (rawBand pr h = .empty ↔ h = 0)
          ∧ (rawBand pr h = .low ↔ 0 < h ∧ h ≤ pr.cushion)
          ∧ (rawBand pr h = .normal ↔ pr.cushion < h ∧ h < pr.len - pr.highFill)
          ∧ (rawBand pr h = .high ↔ pr.len - pr.highFill ≤ h ∧ h < pr.len)
          ∧ (rawBand pr h = .full ↔ h = pr.len))
      ∧ (h = 0 → updatedBand pr h current = .empty)
      ∧ (h ≠ 0 → h = pr.len → updatedBand pr h current = .full)
      ∧ (h ≠ 0 → h ≠ pr.len → current.code ≤ (rawBand pr h).code → updatedBand pr h current = rawBand pr h)
      ∧ (h ≠ 0 → h ≠ pr.len → (rawBand pr h).code < current.code →
          (updatedBand pr h current).code = min current.code (rawBand pr (min (h + pr.hysteresis) (pr.len - 1))).code)
      ∧ (0 < pr.len → h ≤ pr.len →
          (updatedBand pr h current = .empty ↔ h = 0) ∧ (updatedBand pr h current = .full ↔ h = pr.len)))
  ∧ (∀ (pr : PassParams) (x : Pass) (o u : Bool),
      let f := findings pr x o u
      let c := f.causes
      let e := x.evaluated pr o u
      e.causes = c
      ∧ e.sticky =
          { i := x.est.sticky.i || c.i, o := x.est.sticky.o || c.o, u := x.est.sticky.u || c.u
            v := x.est.sticky.v || c.v, g := x.est.sticky.g || c.g.isSome }
      ∧ e.sample = x.est.sample ∧ e.life = x.est.life
      ∧ (enabledCauses pr c = [] →
          e.hc = f.hc ∧ (∀ n, f.hs = some n → e.hs = n) ∧ (f.hs = none → e.hs = x.est.hs)
          ∧ (∀ n, f.h = some n → e.h = n) ∧ (f.h = none → e.h = x.est.h) ∧ e.band = updatedBand pr e.h x.est.band)
      ∧ (enabledCauses pr c ≠ [] →
          e.h = x.est.h ∧ e.hc = x.est.hc ∧ e.hs = x.est.hs ∧ e.band = x.est.band))
  ∧ ∀ (pr : PassParams) (c : CauseSet),
      enabledCauses pr c =
        ([(c.o && pr.enableO, Cause.overflow), (c.u && pr.enableU, .underflow), (c.v && pr.enableV, .invalid),
          (c.g == some .high && pr.enableG, .divergenceHigh), (c.g == some .low && pr.enableG, .divergenceLow),
          (c.i && pr.enableI, .inexact)].filter Prod.fst).map Prod.snd

/-- R40 to R42: a draw takes its tonnage from the head upward; what the column cannot give is Shortfall and raises
Underflow. While the head left is below the residue threshold and a charge stands above it, it is merged into that charge:
`merged` are the charges merged into one after another, the last of them the new head; what does not fit below 60000 is
Spill and raises Overflow. The totals stop at 4,294,967,295 (R49). -/
def Obligations.DrawTakesFromTheHead : Prop :=
  ∀ (c : Column) (r d : Nat) (now : Word),
    let total (l : List Charge) : Nat := (l.map Charge.remaining).sum
    let drawn := min (c.drawn + d) Config.totalCeiling
    let mergeUp (head : Charge × Nat) (n : Charge) : Charge × Nat :=
      ({ n with
        remaining := min (n.remaining + head.1.remaining) Config.tonnageCeiling
        placed := min (n.placed + head.1.remaining) Config.tonnageCeiling
        wetness := if n.wetness.code < head.1.wetness.code then head.1.wetness else n.wetness
        oversize := n.oversize || head.1.oversize
        merge := some
          { count := match n.merge with
              | none => 1
              | some m => min (m.count + 1) Config.countCeiling
            latest := now } },
       head.2 + (n.remaining + head.1.remaining - Config.tonnageCeiling))
    (∀ pre x merged rest, c.charges = pre ++ x :: (merged ++ rest) → total pre ≤ d → d < total pre + x.remaining →
      let after (k : Nat) := (merged.take k).foldl mergeUp ({ x with remaining := x.remaining - (d - total pre) }, 0)
      let last := after merged.length
      (∀ k, k < merged.length → (after k).1.remaining < r) → r ≤ last.1.remaining ∨ rest = [] →
      c.draw r now d =
        ({ c with
          charges := last.1 :: rest, drawn := drawn, spill := min (c.spill + last.2) Config.totalCeiling },
          decide (0 < last.2), false))
    ∧ (total c.charges ≤ d →
        c.draw r now d =
          ({ c with charges := [], drawn := drawn, shortfall := min (c.shortfall + (d - total c.charges)) Config.totalCeiling },
            false, decide (total c.charges < d)))

/-- R36 to R38, R35: a tip splits its payload: the fines become a new charge at the top, or are merged into the top of a
column of 48, and where all is oversize the column stays; the oversize joins the accumulator of its tip point; what fits
nowhere is Spill and raises Overflow. -/
def Obligations.TipSplitsItsPayload : Prop :=
  ∀ (c : Column) (m : Rounding) (now : Word) (t : TipId) (p s : Nat) (w : Wetness),
    let o := (roundDiv m (p * s) 100).1
    let a := c.accums.get t
    let kept := min o (Config.tonnageCeiling - a.tonnage)
    let bars := if o = 0 then c.accums
      else c.accums.set t
        { tonnage := a.tonnage + kept, wetness := if a.wetness.code < w.code then w else a.wetness }
    c.spill ≤ Config.totalCeiling → s ≤ 100 → 1 ≤ p →
    (c.charges.length < 48 →
      c.tip m now t p w s =
        ({ c with
          charges := if o = p then c.charges
            else c.charges ++
              [{ number := c.counter, origin := .tip t, placed := p - o, remaining := p - o, wetness := w
                 oversize := false, placedAt := now, merge := none }]
          counter := if o = p then c.counter else c.counter + 1
          accums := bars
          tipped := min (c.tipped + p) Config.totalCeiling
          spill := min (c.spill + (o - kept)) Config.totalCeiling }, decide (kept < o)))
    ∧ (∀ pre top, c.charges = pre ++ [top] → c.charges.length = 48 →
        let e := if o = p then 0 else top.remaining + (p - o) - Config.tonnageCeiling
        c.tip m now t p w s =
          ({ c with
            charges := if o = p then c.charges
              else pre ++
                [{ top with
                  remaining := min (top.remaining + (p - o)) Config.tonnageCeiling
                  placed := min (top.placed + (p - o)) Config.tonnageCeiling
                  wetness := if top.wetness.code < w.code then w else top.wetness
                  merge := some
                    { count := match top.merge with
                        | none => 1
                        | some r => min (r.count + 1) Config.countCeiling
                      latest := now } }]
            accums := bars
            tipped := min (c.tipped + p) Config.totalCeiling
            spill := min (c.spill + e + (o - kept)) Config.totalCeiling }, decide (0 < e ∨ kept < o)))

/-! ### What every step keeps -/

/-- R50: every step keeps each pass's account balanced, as long as its counters count. R32, R33, R35: every step keeps at
most 48 charges with tonnages in range and numbers that run on, and accumulators at or below 60000, Dry when empty. -/
def Obligations.StepKeepsColumns : Prop :=
  (Config.columnCapacity = 48 ∧ Config.tonnageCeiling = 60000 ∧ Config.totalCeiling = 4294967295 ∧ Config.countCeiling = 255
    ∧ ∀ c : Column, columnTotal c = (c.charges.map Charge.remaining).sum
        ∧ accumTotal c = (c.accums.get 0).tonnage + (c.accums.get 1).tonnage + (c.accums.get 2).tonnage)
  ∧ (∀ s t : State, AccountsBalance s → step s = .next t → AccountsBalance t)
    ∧ ∀ s t : State, ColumnsSound s → step s = .next t → ColumnsSound t

/-- R72, R75, R78: every step keeps the stored heights between 0 and L, the band EMPTY exactly at 0 and FULL exactly at L,
and the figures of an UNCONFIGURED pass at 0. -/
def Obligations.StepKeepsEstimates : Prop :=
  ∀ s t : State, EstimatesSound s → step s = .next t → EstimatesSound t

/-- R10, R126, R164, R165: every step keeps at most 48 telegrams in each queue and no action telegram in the Control
Port's; the notice list to one entry per source and class, with counts 1 to 255 and the source its class has; and at most
16 held commands, never two for one actuator. R5: every step keeps every telegram that stands in a queue, on a line or
with an ISSUED entry passing the check. -/
def Obligations.StepKeepsQueues : Prop :=
  (Config.txCapacity = 48 ∧ Config.poolCapacity = 16 ∧ Config.actionCapacity = 32 ∧ Config.lineCapacity = 4)
    ∧ (∀ s t : State, QueuesBounded s → step s = .next t → QueuesBounded t)
    ∧ (∀ s t : State, NoticesSound s → step s = .next t → NoticesSound t)
    ∧ (∀ s t : State, PoolSound s → step s = .next t → PoolSound t)
    ∧ ∀ s t : State, TelegramsChecked s → step s = .next t → TelegramsChecked t

/-- R21, R23, R133, R135, R136, R147: every step keeps the Point Table free of incomplete and clashing valid entries, a
command point behind every entry of the Action Queue and the Hold Pool, non-safe and held commands to passes in RUNNING
or ALERT, and every actuator's line led by its one ISSUED entry with only non-safe entries waiting, at most 4 in a line
and 32 in all. R10, R138: and with it at most one action telegram queued for an actuator, that of its ISSUED entry, with
that entry's direction and telegram standing QUEUED. -/
def Obligations.StepKeepsCommands : Prop :=
  (∀ s t : State, CommandsSound s → step s = .next t → CommandsSound t)
    ∧ ∀ s t : State, CommandsSound s → ActionTelegramsMatched s.traffic → step s = .next t →
        ActionTelegramsMatched t.traffic

/-- R150 to R152, R162: every step keeps the level of every alarm record to what the pass state shows, alert causes alone
in an alert, each cause once; and each pass's state to its Configured setting and its isolation mark. -/
def Obligations.StepKeepsPassStates : Prop :=
  (∀ s t : State, AlarmsSound s → step s = .next t → AlarmsSound t)
    ∧ ∀ s t : State, PassStatesStored s → step s = .next t → PassStatesStored t

end Statements
end

