-- ==== Sys2Proof/Laws/Fixed.lean ====
section
/-! SUPPORT. Reading after writing in the fixed-size records of Word.lean. -/

namespace Sys2Proof

variable {α β : Type}

@[simp] theorem Duo.get_set_self (d : Duo α) (i : Fin 2) (x : α) : (d.set i x).get i = x := by
  fin_cases i <;> rfl

@[simp] theorem Trio.get_set_self (d : Trio α) (i : Fin 3) (x : α) : (d.set i x).get i = x := by
  fin_cases i <;> rfl

@[simp] theorem Quad.get_set_self (d : Quad α) (i : Fin 4) (x : α) : (d.set i x).get i = x := by
  fin_cases i <;> rfl

theorem Duo.get_set_ne {i j : Fin 2} (h : j ≠ i) (d : Duo α) (x : α) : (d.set i x).get j = d.get j := by
  fin_cases i <;> fin_cases j <;> first | rfl | exact absurd rfl h

theorem Trio.get_set_ne {i j : Fin 3} (h : j ≠ i) (d : Trio α) (x : α) : (d.set i x).get j = d.get j := by
  fin_cases i <;> fin_cases j <;> first | rfl | exact absurd rfl h

theorem Quad.get_set_ne {i j : Fin 4} (h : j ≠ i) (d : Quad α) (x : α) : (d.set i x).get j = d.get j := by
  fin_cases i <;> fin_cases j <;> first | rfl | exact absurd rfl h

/-- Reading any place after a write. -/
theorem Duo.get_set (d : Duo α) (i j : Fin 2) (x : α) : (d.set i x).get j = if j = i then x else d.get j := by
  split
  · rename_i h; subst h; exact d.get_set_self j x
  · rename_i h; exact Duo.get_set_ne h d x

theorem Trio.get_set (d : Trio α) (i j : Fin 3) (x : α) : (d.set i x).get j = if j = i then x else d.get j := by
  split
  · rename_i h; subst h; exact d.get_set_self j x
  · rename_i h; exact Trio.get_set_ne h d x

theorem Quad.get_set (d : Quad α) (i j : Fin 4) (x : α) : (d.set i x).get j = if j = i then x else d.get j := by
  split
  · rename_i h; subst h; exact d.get_set_self j x
  · rename_i h; exact Quad.get_set_ne h d x

@[simp] theorem Duo.get_all (x : α) (i : Fin 2) : (Duo.all x).get i = x := by fin_cases i <;> rfl

@[simp] theorem Trio.get_all (x : α) (i : Fin 3) : (Trio.all x).get i = x := by fin_cases i <;> rfl

@[simp] theorem Quad.get_all (x : α) (i : Fin 4) : (Quad.all x).get i = x := by fin_cases i <;> rfl

@[simp] theorem Quad.get_map (f : α → β) (d : Quad α) (i : Fin 4) : (d.map f).get i = f (d.get i) := by
  fin_cases i <;> rfl

/-- Two records that agree in every place are equal. -/
theorem Quad.ext_get {d e : Quad α} (h : ∀ i, d.get i = e.get i) : d = e := by
  obtain ⟨a, b, c, f⟩ := d
  obtain ⟨a', b', c', f'⟩ := e
  have h0 : a = a' := h 0
  have h1 : b = b' := h 1
  have h2 : c = c' := h 2
  have h3 : f = f' := h 3
  subst h0 h1 h2 h3
  rfl

/-- A write of what stands there changes nothing. -/
@[simp] theorem Quad.set_get_self (d : Quad α) (i : Fin 4) : d.set i (d.get i) = d := by
  fin_cases i <;> rfl

theorem indexBelow_eq_some {k n : Nat} {i : Fin k} : indexBelow k n = some i ↔ n = i.val := by
  unfold indexBelow
  split
  · rename_i h
    constructor
    · intro e; injection e with e; rw [← e]
    · intro e; subst e; rfl
  · rename_i h
    constructor
    · intro e; cases e
    · intro e; exact absurd (e ▸ i.isLt) h

end Sys2Proof
end

