-- ==== Sys2Proof/Laws/State.lean ====
section
/-! SUPPORT. One lemma per field per update of the state, all true by unfolding, so that no later proof opens a record
update; and what a pass reads as after each of them. -/

namespace Sys2Proof.Machine


section setPass

variable {s : State} {p : PassId} {x : Pass}

@[simp] theorem State.setPass_tables : (s.setPass p x).tables = s.tables := rfl
@[simp] theorem State.setPass_passes : (s.setPass p x).passes = s.passes.set p x := rfl
@[simp] theorem State.setPass_traffic : (s.setPass p x).traffic = s.traffic := rfl
@[simp] theorem State.setPass_silence : (s.setPass p x).silence = s.silence := rfl
@[simp] theorem State.setPass_time : (s.setPass p x).time = s.time := rfl
@[simp] theorem State.setPass_pendingIsolation : (s.setPass p x).pendingIsolation = s.pendingIsolation := rfl
@[simp] theorem State.setPass_bar : (s.setPass p x).bar = s.bar := rfl
@[simp] theorem State.setPass_resetCause : (s.setPass p x).resetCause = s.resetCause := rfl
@[simp] theorem State.setPass_resetPending : (s.setPass p x).resetPending = s.resetPending := rfl
@[simp] theorem State.setPass_draws : (s.setPass p x).draws = s.draws := rfl
@[simp] theorem State.setPass_pending : (s.setPass p x).pending = s.pending := rfl

@[simp] theorem State.setPass_pass_self : (s.setPass p x).pass p = x := by simp [State.pass]

theorem State.setPass_pass_ne {q : PassId} (h : q ≠ p) : (s.setPass p x).pass q = s.pass q := by
  simp [State.pass, Quad.get_set_ne h]

theorem State.setPass_pass (q : PassId) : (s.setPass p x).pass q = if q = p then x else s.pass q := by
  simp [State.pass, Quad.get_set]

@[simp] theorem State.setPass_params (q : PassId) : (s.setPass p x).params q = s.params q := rfl

/-- The later of two writes of a pass stands. -/
@[simp] theorem State.setPass_setPass {y : Pass} : (s.setPass p x).setPass p y = s.setPass p y := by
  unfold State.setPass
  congr 1
  fin_cases p <;> rfl

@[simp] theorem State.setPass_pass_same : s.setPass p (s.pass p) = s := by
  simp [State.setPass, State.pass]

end setPass

section setTip

variable {s : State} {p : PassId} {t : TipId} {r : TipRecord}

@[simp] theorem State.setTip_tables : (s.setTip p t r).tables = s.tables := rfl
@[simp] theorem State.setTip_passes :
    (s.setTip p t r).passes = s.passes.set p { s.pass p with tips := (s.pass p).tips.set t r } := rfl
@[simp] theorem State.setTip_traffic : (s.setTip p t r).traffic = s.traffic := rfl
@[simp] theorem State.setTip_silence : (s.setTip p t r).silence = s.silence := rfl
@[simp] theorem State.setTip_time : (s.setTip p t r).time = s.time := rfl
@[simp] theorem State.setTip_pendingIsolation : (s.setTip p t r).pendingIsolation = s.pendingIsolation := rfl
@[simp] theorem State.setTip_bar : (s.setTip p t r).bar = s.bar := rfl
@[simp] theorem State.setTip_resetCause : (s.setTip p t r).resetCause = s.resetCause := rfl
@[simp] theorem State.setTip_resetPending : (s.setTip p t r).resetPending = s.resetPending := rfl
@[simp] theorem State.setTip_draws : (s.setTip p t r).draws = s.draws := rfl
@[simp] theorem State.setTip_pending : (s.setTip p t r).pending = s.pending := rfl

@[simp] theorem State.setTip_pass_self :
    (s.setTip p t r).pass p = { s.pass p with tips := (s.pass p).tips.set t r } := by simp [State.pass]

theorem State.setTip_pass_ne {q : PassId} (h : q ≠ p) : (s.setTip p t r).pass q = s.pass q := by
  simp [State.pass, Quad.get_set_ne h]

@[simp] theorem State.setTip_params (q : PassId) : (s.setTip p t r).params q = s.params q := rfl

end setTip

section setChute

variable {s : State} {p : PassId} {c : ChuteId} {r : ChuteRecord}

@[simp] theorem State.setChute_tables : (s.setChute p c r).tables = s.tables := rfl
@[simp] theorem State.setChute_passes :
    (s.setChute p c r).passes = s.passes.set p { s.pass p with chutes := (s.pass p).chutes.set c r } := rfl
@[simp] theorem State.setChute_traffic : (s.setChute p c r).traffic = s.traffic := rfl
@[simp] theorem State.setChute_silence : (s.setChute p c r).silence = s.silence := rfl
@[simp] theorem State.setChute_time : (s.setChute p c r).time = s.time := rfl
@[simp] theorem State.setChute_pendingIsolation : (s.setChute p c r).pendingIsolation = s.pendingIsolation := rfl
@[simp] theorem State.setChute_bar : (s.setChute p c r).bar = s.bar := rfl
@[simp] theorem State.setChute_resetCause : (s.setChute p c r).resetCause = s.resetCause := rfl
@[simp] theorem State.setChute_resetPending : (s.setChute p c r).resetPending = s.resetPending := rfl
@[simp] theorem State.setChute_draws : (s.setChute p c r).draws = s.draws := rfl
@[simp] theorem State.setChute_pending : (s.setChute p c r).pending = s.pending := rfl

@[simp] theorem State.setChute_pass_self :
    (s.setChute p c r).pass p = { s.pass p with chutes := (s.pass p).chutes.set c r } := by simp [State.pass]

theorem State.setChute_pass_ne {q : PassId} (h : q ≠ p) : (s.setChute p c r).pass q = s.pass q := by
  simp [State.pass, Quad.get_set_ne h]

@[simp] theorem State.setChute_params (q : PassId) : (s.setChute p c r).params q = s.params q := rfl

end setChute

section onTraffic

variable {s : State} {f : View → Traffic → Traffic}

@[simp] theorem State.onTraffic_tables : (s.onTraffic f).tables = s.tables := rfl
@[simp] theorem State.onTraffic_passes : (s.onTraffic f).passes = s.passes := rfl
@[simp] theorem State.onTraffic_traffic : (s.onTraffic f).traffic = f s.view s.traffic := rfl
@[simp] theorem State.onTraffic_silence : (s.onTraffic f).silence = s.silence := rfl
@[simp] theorem State.onTraffic_time : (s.onTraffic f).time = s.time := rfl
@[simp] theorem State.onTraffic_pendingIsolation : (s.onTraffic f).pendingIsolation = s.pendingIsolation := rfl
@[simp] theorem State.onTraffic_bar : (s.onTraffic f).bar = s.bar := rfl
@[simp] theorem State.onTraffic_resetCause : (s.onTraffic f).resetCause = s.resetCause := rfl
@[simp] theorem State.onTraffic_resetPending : (s.onTraffic f).resetPending = s.resetPending := rfl
@[simp] theorem State.onTraffic_draws : (s.onTraffic f).draws = s.draws := rfl
@[simp] theorem State.onTraffic_pending : (s.onTraffic f).pending = s.pending := rfl
@[simp] theorem State.onTraffic_pass (q : PassId) : (s.onTraffic f).pass q = s.pass q := rfl
@[simp] theorem State.onTraffic_params (q : PassId) : (s.onTraffic f).params q = s.params q := rfl
@[simp] theorem State.onTraffic_view : (s.onTraffic f).view = s.view := rfl

end onTraffic

section raise

variable {s : State} {src : NoticeSource} {cls : NoticeClass} {n : Nat}

@[simp] theorem State.raise_tables : (s.raise src cls n).tables = s.tables := rfl
@[simp] theorem State.raise_passes : (s.raise src cls n).passes = s.passes := rfl
@[simp] theorem State.raise_traffic : (s.raise src cls n).traffic = s.traffic.raise s.tables src cls n := rfl
@[simp] theorem State.raise_silence : (s.raise src cls n).silence = s.silence := rfl
@[simp] theorem State.raise_time : (s.raise src cls n).time = s.time := rfl
@[simp] theorem State.raise_pendingIsolation : (s.raise src cls n).pendingIsolation = s.pendingIsolation := rfl
@[simp] theorem State.raise_bar : (s.raise src cls n).bar = s.bar := rfl
@[simp] theorem State.raise_resetCause : (s.raise src cls n).resetCause = s.resetCause := rfl
@[simp] theorem State.raise_resetPending : (s.raise src cls n).resetPending = s.resetPending := rfl
@[simp] theorem State.raise_draws : (s.raise src cls n).draws = s.draws := rfl
@[simp] theorem State.raise_pending : (s.raise src cls n).pending = s.pending := rfl
@[simp] theorem State.raise_pass (q : PassId) : (s.raise src cls n).pass q = s.pass q := rfl
@[simp] theorem State.raise_params (q : PassId) : (s.raise src cls n).params q = s.params q := rfl
@[simp] theorem State.raise_view : (s.raise src cls n).view = s.view := rfl

end raise

section reportChange

variable {s : State} {p : PassId}

@[simp] theorem State.reportChange_tables : (s.reportChange p).tables = s.tables := rfl
@[simp] theorem State.reportChange_passes : (s.reportChange p).passes = s.passes := rfl
@[simp] theorem State.reportChange_traffic : (s.reportChange p).traffic = s.traffic.change s.view p false := rfl
@[simp] theorem State.reportChange_silence : (s.reportChange p).silence = s.silence := rfl
@[simp] theorem State.reportChange_time : (s.reportChange p).time = s.time := rfl
@[simp] theorem State.reportChange_pendingIsolation : (s.reportChange p).pendingIsolation = s.pendingIsolation := rfl
@[simp] theorem State.reportChange_bar : (s.reportChange p).bar = s.bar := rfl
@[simp] theorem State.reportChange_resetCause : (s.reportChange p).resetCause = s.resetCause := rfl
@[simp] theorem State.reportChange_resetPending : (s.reportChange p).resetPending = s.resetPending := rfl
@[simp] theorem State.reportChange_draws : (s.reportChange p).draws = s.draws := rfl
@[simp] theorem State.reportChange_pending : (s.reportChange p).pending = s.pending := rfl
@[simp] theorem State.reportChange_pass (q : PassId) : (s.reportChange p).pass q = s.pass q := rfl
@[simp] theorem State.reportChange_params (q : PassId) : (s.reportChange p).params q = s.params q := rfl
@[simp] theorem State.reportChange_view : (s.reportChange p).view = s.view := rfl

end reportChange

section reportStandingChange

variable {s : State} {p : PassId}

@[simp] theorem State.reportStandingChange_tables : (s.reportStandingChange p).tables = s.tables := rfl
@[simp] theorem State.reportStandingChange_passes : (s.reportStandingChange p).passes = s.passes := rfl
@[simp] theorem State.reportStandingChange_traffic :
    (s.reportStandingChange p).traffic = s.traffic.change s.view p true := rfl
@[simp] theorem State.reportStandingChange_silence : (s.reportStandingChange p).silence = s.silence := rfl
@[simp] theorem State.reportStandingChange_time : (s.reportStandingChange p).time = s.time := rfl
@[simp] theorem State.reportStandingChange_pendingIsolation :
    (s.reportStandingChange p).pendingIsolation = s.pendingIsolation := rfl
@[simp] theorem State.reportStandingChange_bar : (s.reportStandingChange p).bar = s.bar := rfl
@[simp] theorem State.reportStandingChange_resetCause : (s.reportStandingChange p).resetCause = s.resetCause := rfl
@[simp] theorem State.reportStandingChange_resetPending :
    (s.reportStandingChange p).resetPending = s.resetPending := rfl
@[simp] theorem State.reportStandingChange_draws : (s.reportStandingChange p).draws = s.draws := rfl
@[simp] theorem State.reportStandingChange_pending : (s.reportStandingChange p).pending = s.pending := rfl
@[simp] theorem State.reportStandingChange_pass (q : PassId) : (s.reportStandingChange p).pass q = s.pass q := rfl
@[simp] theorem State.reportStandingChange_params (q : PassId) : (s.reportStandingChange p).params q = s.params q := rfl
@[simp] theorem State.reportStandingChange_view : (s.reportStandingChange p).view = s.view := rfl

end reportStandingChange

section originate

variable {s : State} {a : Actuator}

@[simp] theorem State.originate_tables : (s.originate a).tables = s.tables := rfl
@[simp] theorem State.originate_passes : (s.originate a).passes = s.passes := rfl
@[simp] theorem State.originate_traffic : (s.originate a).traffic = s.traffic.originate s.view a := rfl
@[simp] theorem State.originate_silence : (s.originate a).silence = s.silence := rfl
@[simp] theorem State.originate_time : (s.originate a).time = s.time := rfl
@[simp] theorem State.originate_pendingIsolation : (s.originate a).pendingIsolation = s.pendingIsolation := rfl
@[simp] theorem State.originate_bar : (s.originate a).bar = s.bar := rfl
@[simp] theorem State.originate_resetCause : (s.originate a).resetCause = s.resetCause := rfl
@[simp] theorem State.originate_resetPending : (s.originate a).resetPending = s.resetPending := rfl
@[simp] theorem State.originate_draws : (s.originate a).draws = s.draws := rfl
@[simp] theorem State.originate_pending : (s.originate a).pending = s.pending := rfl
@[simp] theorem State.originate_pass (q : PassId) : (s.originate a).pass q = s.pass q := rfl
@[simp] theorem State.originate_params (q : PassId) : (s.originate a).params q = s.params q := rfl
@[simp] theorem State.originate_view : (s.originate a).view = s.view := rfl

end originate

section relayFrom

variable {s : State} {port : PortId} {t : Telegram}

@[simp] theorem State.relayFrom_tables : (s.relayFrom port t).tables = s.tables := rfl
@[simp] theorem State.relayFrom_passes : (s.relayFrom port t).passes = s.passes := rfl
@[simp] theorem State.relayFrom_silence : (s.relayFrom port t).silence = s.silence := rfl
@[simp] theorem State.relayFrom_time : (s.relayFrom port t).time = s.time := rfl
@[simp] theorem State.relayFrom_pendingIsolation : (s.relayFrom port t).pendingIsolation = s.pendingIsolation := rfl
@[simp] theorem State.relayFrom_bar : (s.relayFrom port t).bar = s.bar := rfl
@[simp] theorem State.relayFrom_resetCause : (s.relayFrom port t).resetCause = s.resetCause := rfl
@[simp] theorem State.relayFrom_resetPending : (s.relayFrom port t).resetPending = s.resetPending := rfl
@[simp] theorem State.relayFrom_draws : (s.relayFrom port t).draws = s.draws := rfl
@[simp] theorem State.relayFrom_pending : (s.relayFrom port t).pending = s.pending := rfl
@[simp] theorem State.relayFrom_pass (q : PassId) : (s.relayFrom port t).pass q = s.pass q := rfl
@[simp] theorem State.relayFrom_params (q : PassId) : (s.relayFrom port t).params q = s.params q := rfl
@[simp] theorem State.relayFrom_view : (s.relayFrom port t).view = s.view := rfl

end relayFrom

section refuseAtField

variable {s : State} {t : Telegram}

@[simp] theorem State.refuseAtField_tables : (s.refuseAtField t).tables = s.tables := rfl
@[simp] theorem State.refuseAtField_passes : (s.refuseAtField t).passes = s.passes := rfl
@[simp] theorem State.refuseAtField_silence : (s.refuseAtField t).silence = s.silence := rfl
@[simp] theorem State.refuseAtField_time : (s.refuseAtField t).time = s.time := rfl
@[simp] theorem State.refuseAtField_pendingIsolation : (s.refuseAtField t).pendingIsolation = s.pendingIsolation := rfl
@[simp] theorem State.refuseAtField_bar : (s.refuseAtField t).bar = s.bar := rfl
@[simp] theorem State.refuseAtField_resetCause : (s.refuseAtField t).resetCause = s.resetCause := rfl
@[simp] theorem State.refuseAtField_resetPending : (s.refuseAtField t).resetPending = s.resetPending := rfl
@[simp] theorem State.refuseAtField_draws : (s.refuseAtField t).draws = s.draws := rfl
@[simp] theorem State.refuseAtField_pending : (s.refuseAtField t).pending = s.pending := rfl
@[simp] theorem State.refuseAtField_pass (q : PassId) : (s.refuseAtField t).pass q = s.pass q := rfl
@[simp] theorem State.refuseAtField_params (q : PassId) : (s.refuseAtField t).params q = s.params q := rfl
@[simp] theorem State.refuseAtField_view : (s.refuseAtField t).view = s.view := rfl

end refuseAtField

section takeCommand

variable {s : State} {a : Actuator} {t : Telegram}

@[simp] theorem State.takeCommand_tables : (s.takeCommand a t).tables = s.tables := rfl
@[simp] theorem State.takeCommand_passes : (s.takeCommand a t).passes = s.passes := rfl
@[simp] theorem State.takeCommand_traffic : (s.takeCommand a t).traffic = s.traffic.arrive s.view a t := rfl
@[simp] theorem State.takeCommand_silence : (s.takeCommand a t).silence = s.silence := rfl
@[simp] theorem State.takeCommand_time : (s.takeCommand a t).time = s.time := rfl
@[simp] theorem State.takeCommand_pendingIsolation : (s.takeCommand a t).pendingIsolation = s.pendingIsolation := rfl
@[simp] theorem State.takeCommand_bar : (s.takeCommand a t).bar = s.bar := rfl
@[simp] theorem State.takeCommand_resetCause : (s.takeCommand a t).resetCause = s.resetCause := rfl
@[simp] theorem State.takeCommand_resetPending : (s.takeCommand a t).resetPending = s.resetPending := rfl
@[simp] theorem State.takeCommand_draws : (s.takeCommand a t).draws = s.draws := rfl
@[simp] theorem State.takeCommand_pending : (s.takeCommand a t).pending = s.pending := rfl
@[simp] theorem State.takeCommand_pass (q : PassId) : (s.takeCommand a t).pass q = s.pass q := rfl
@[simp] theorem State.takeCommand_params (q : PassId) : (s.takeCommand a t).params q = s.params q := rfl
@[simp] theorem State.takeCommand_view : (s.takeCommand a t).view = s.view := rfl

end takeCommand

section setPoint

variable {s : State} {i : Fin 128} {e : PointEntry}

@[simp] theorem State.setPoint_tables :
    (s.setPoint i e).tables = { s.tables with points := s.tables.points.set i e } := rfl
@[simp] theorem State.setPoint_passes : (s.setPoint i e).passes = s.passes := rfl
@[simp] theorem State.setPoint_traffic : (s.setPoint i e).traffic = s.traffic := rfl
@[simp] theorem State.setPoint_silence : (s.setPoint i e).silence = s.silence := rfl
@[simp] theorem State.setPoint_time : (s.setPoint i e).time = s.time := rfl
@[simp] theorem State.setPoint_pendingIsolation : (s.setPoint i e).pendingIsolation = s.pendingIsolation := rfl
@[simp] theorem State.setPoint_bar : (s.setPoint i e).bar = s.bar := rfl
@[simp] theorem State.setPoint_resetCause : (s.setPoint i e).resetCause = s.resetCause := rfl
@[simp] theorem State.setPoint_resetPending : (s.setPoint i e).resetPending = s.resetPending := rfl
@[simp] theorem State.setPoint_draws : (s.setPoint i e).draws = s.draws := rfl
@[simp] theorem State.setPoint_pending : (s.setPoint i e).pending = s.pending := rfl
@[simp] theorem State.setPoint_pass (q : PassId) : (s.setPoint i e).pass q = s.pass q := rfl
@[simp] theorem State.setPoint_params (q : PassId) : (s.setPoint i e).params q = s.params q := rfl

end setPoint

section store

variable {s : State} {f : TableField} {x : Int}

@[simp] theorem State.store_tables : (s.store f x).tables = s.tables.write x.toNat f := rfl
@[simp] theorem State.store_passes : (s.store f x).passes = s.passes := rfl
@[simp] theorem State.store_traffic : (s.store f x).traffic = s.traffic := rfl
@[simp] theorem State.store_silence : (s.store f x).silence = s.silence := rfl
@[simp] theorem State.store_time : (s.store f x).time = s.time := rfl
@[simp] theorem State.store_pendingIsolation : (s.store f x).pendingIsolation = s.pendingIsolation := rfl
@[simp] theorem State.store_bar : (s.store f x).bar = s.bar := rfl
@[simp] theorem State.store_resetCause : (s.store f x).resetCause = s.resetCause := rfl
@[simp] theorem State.store_resetPending : (s.store f x).resetPending = s.resetPending := rfl
@[simp] theorem State.store_draws : (s.store f x).draws = s.draws := rfl
@[simp] theorem State.store_pending : (s.store f x).pending = s.pending := rfl
@[simp] theorem State.store_pass (q : PassId) : (s.store f x).pass q = s.pass q := rfl

end store

section setTime

variable {s : State} {x : Word}

@[simp] theorem State.setTime_tables : (s.setTime x).tables = s.tables := rfl
@[simp] theorem State.setTime_passes : (s.setTime x).passes = s.passes := rfl
@[simp] theorem State.setTime_traffic : (s.setTime x).traffic = s.traffic := rfl
@[simp] theorem State.setTime_silence : (s.setTime x).silence = s.silence := rfl
@[simp] theorem State.setTime_time : (s.setTime x).time = x := rfl
@[simp] theorem State.setTime_pendingIsolation : (s.setTime x).pendingIsolation = s.pendingIsolation := rfl
@[simp] theorem State.setTime_bar : (s.setTime x).bar = s.bar := rfl
@[simp] theorem State.setTime_resetCause : (s.setTime x).resetCause = s.resetCause := rfl
@[simp] theorem State.setTime_resetPending : (s.setTime x).resetPending = s.resetPending := rfl
@[simp] theorem State.setTime_draws : (s.setTime x).draws = s.draws := rfl
@[simp] theorem State.setTime_pending : (s.setTime x).pending = s.pending := rfl
@[simp] theorem State.setTime_pass (q : PassId) : (s.setTime x).pass q = s.pass q := rfl
@[simp] theorem State.setTime_params (q : PassId) : (s.setTime x).params q = s.params q := rfl
@[simp] theorem State.setTime_view : (s.setTime x).view = s.view := rfl

end setTime

section takeReset

variable {s : State}

@[simp] theorem State.takeReset_tables : s.takeReset.tables = s.tables := rfl
@[simp] theorem State.takeReset_passes : s.takeReset.passes = s.passes := rfl
@[simp] theorem State.takeReset_traffic : s.takeReset.traffic = s.traffic := rfl
@[simp] theorem State.takeReset_silence : s.takeReset.silence = s.silence := rfl
@[simp] theorem State.takeReset_time : s.takeReset.time = s.time := rfl
@[simp] theorem State.takeReset_pendingIsolation : s.takeReset.pendingIsolation = s.pendingIsolation := rfl
@[simp] theorem State.takeReset_bar : s.takeReset.bar = s.bar := rfl
@[simp] theorem State.takeReset_resetCause : s.takeReset.resetCause = s.resetCause := rfl
@[simp] theorem State.takeReset_resetPending : s.takeReset.resetPending = true := rfl
@[simp] theorem State.takeReset_draws : s.takeReset.draws = s.draws := rfl
@[simp] theorem State.takeReset_pending : s.takeReset.pending = s.pending := rfl
@[simp] theorem State.takeReset_pass (q : PassId) : s.takeReset.pass q = s.pass q := rfl
@[simp] theorem State.takeReset_params (q : PassId) : s.takeReset.params q = s.params q := rfl
@[simp] theorem State.takeReset_view : s.takeReset.view = s.view := rfl

end takeReset

section clearOverruns

variable {s : State}

@[simp] theorem State.clearOverruns_tables : s.clearOverruns.tables = s.tables := rfl
@[simp] theorem State.clearOverruns_passes : s.clearOverruns.passes = s.passes := rfl
@[simp] theorem State.clearOverruns_silence : s.clearOverruns.silence = s.silence := rfl
@[simp] theorem State.clearOverruns_time : s.clearOverruns.time = s.time := rfl
@[simp] theorem State.clearOverruns_pendingIsolation : s.clearOverruns.pendingIsolation = s.pendingIsolation := rfl
@[simp] theorem State.clearOverruns_bar : s.clearOverruns.bar = s.bar := rfl
@[simp] theorem State.clearOverruns_resetCause : s.clearOverruns.resetCause = s.resetCause := rfl
@[simp] theorem State.clearOverruns_resetPending : s.clearOverruns.resetPending = s.resetPending := rfl
@[simp] theorem State.clearOverruns_draws : s.clearOverruns.draws = s.draws := rfl
@[simp] theorem State.clearOverruns_pending : s.clearOverruns.pending = s.pending := rfl
@[simp] theorem State.clearOverruns_pass (q : PassId) : s.clearOverruns.pass q = s.pass q := rfl
@[simp] theorem State.clearOverruns_params (q : PassId) : s.clearOverruns.params q = s.params q := rfl
@[simp] theorem State.clearOverruns_view : s.clearOverruns.view = s.view := rfl

end clearOverruns

/-! ### Receiving -/

section heard

variable {s : State} {port : PortId}

@[simp] theorem heard_tables : (heard port s).tables = s.tables := by cases port <;> rfl
@[simp] theorem heard_passes : (heard port s).passes = s.passes := by cases port <;> rfl
@[simp] theorem heard_traffic : (heard port s).traffic = s.traffic := by cases port <;> rfl
@[simp] theorem heard_time : (heard port s).time = s.time := by cases port <;> rfl
@[simp] theorem heard_pendingIsolation : (heard port s).pendingIsolation = s.pendingIsolation := by cases port <;> rfl
@[simp] theorem heard_bar : (heard port s).bar = s.bar := by cases port <;> rfl
@[simp] theorem heard_resetCause : (heard port s).resetCause = s.resetCause := by cases port <;> rfl
@[simp] theorem heard_resetPending : (heard port s).resetPending = s.resetPending := by cases port <;> rfl
@[simp] theorem heard_draws : (heard port s).draws = s.draws := by cases port <;> rfl
@[simp] theorem heard_pending : (heard port s).pending = s.pending := by cases port <;> rfl
@[simp] theorem heard_pass (q : PassId) : (heard port s).pass q = s.pass q := by cases port <;> rfl
@[simp] theorem heard_params (q : PassId) : (heard port s).params q = s.params q := by cases port <;> rfl
@[simp] theorem heard_view : (heard port s).view = s.view := by cases port <;> rfl
@[simp] theorem heard_control_silence :
    (heard .control s).silence = startedSilence s.tables.device.silenceTime := rfl
@[simp] theorem heard_field : heard .field s = s := rfl

end heard

/-! ### The view -/

@[simp] theorem State.view_tables (s : State) : s.view.tables = s.tables := rfl
@[simp] theorem State.view_passes (s : State) : s.view.passes = s.passes := rfl
theorem State.pass_eq (s : State) (p : PassId) : s.passes.get p = s.pass p := rfl
theorem State.params_eq (s : State) (p : PassId) : s.tables.params.get p = s.params p := rfl

end Sys2Proof.Machine
end

