-- ==== Sys2Proof/Laws/Traffic.lean ====
section
/-! SUPPORT. What each operation on the traffic leaves alone, field by field: the Control Port side moves nothing of the
Field Port, the Hold Pool and the Action Queue; placing at the Field Port moves of the Action Queue the standings alone. -/

namespace Sys2Proof.Machine

/-! ### Toward the control room -/

section control

variable {tr : Traffic} {tb : Tables} {q : Queued} {src : NoticeSource} {cls : NoticeClass} {n value : Nat}
variable {r : Requester} {ans : Answer} {reason : Reason} {e : ActionEntry}

@[simp] theorem Traffic.placeControl_field : (tr.placeControl tb q).field = tr.field := rfl
@[simp] theorem Traffic.placeControl_pool : (tr.placeControl tb q).pool = tr.pool := rfl
@[simp] theorem Traffic.placeControl_actions : (tr.placeControl tb q).actions = tr.actions := rfl
@[simp] theorem Traffic.placeControl_tagCounter : (tr.placeControl tb q).tagCounter = tr.tagCounter := rfl
@[simp] theorem Traffic.placeControl_history : (tr.placeControl tb q).history = tr.history := rfl

@[simp] theorem Traffic.raise_field : (tr.raise tb src cls n).field = tr.field := rfl
@[simp] theorem Traffic.raise_pool : (tr.raise tb src cls n).pool = tr.pool := rfl
@[simp] theorem Traffic.raise_actions : (tr.raise tb src cls n).actions = tr.actions := rfl
@[simp] theorem Traffic.raise_tagCounter : (tr.raise tb src cls n).tagCounter = tr.tagCounter := rfl
@[simp] theorem Traffic.raise_history : (tr.raise tb src cls n).history = tr.history := rfl

@[simp] theorem Traffic.raiseMany_field {k : Nat} : (tr.raiseMany tb src cls k n).field = tr.field := rfl
@[simp] theorem Traffic.raiseMany_pool {k : Nat} : (tr.raiseMany tb src cls k n).pool = tr.pool := rfl
@[simp] theorem Traffic.raiseMany_actions {k : Nat} : (tr.raiseMany tb src cls k n).actions = tr.actions := rfl
@[simp] theorem Traffic.raiseMany_tagCounter {k : Nat} : (tr.raiseMany tb src cls k n).tagCounter = tr.tagCounter := rfl
@[simp] theorem Traffic.raiseMany_history {k : Nat} : (tr.raiseMany tb src cls k n).history = tr.history := rfl

@[simp] theorem Traffic.answer_field : (tr.answer tb r ans reason value).field = tr.field := rfl
@[simp] theorem Traffic.answer_pool : (tr.answer tb r ans reason value).pool = tr.pool := rfl
@[simp] theorem Traffic.answer_actions : (tr.answer tb r ans reason value).actions = tr.actions := rfl
@[simp] theorem Traffic.answer_tagCounter : (tr.answer tb r ans reason value).tagCounter = tr.tagCounter := rfl
@[simp] theorem Traffic.answer_history : (tr.answer tb r ans reason value).history = tr.history := rfl

/-- An answer for an entry is an answer to its station, or nothing. -/
theorem Traffic.answerEntry_eq :
    (tr.answerEntry tb e ans reason value)
      = { tr with ctl := (tr.answerEntry tb e ans reason value).ctl } := by
  unfold Traffic.answerEntry
  split <;> rfl

@[simp] theorem Traffic.answerEntry_field : (tr.answerEntry tb e ans reason value).field = tr.field := by
  rw [Traffic.answerEntry_eq]
@[simp] theorem Traffic.answerEntry_pool : (tr.answerEntry tb e ans reason value).pool = tr.pool := by
  rw [Traffic.answerEntry_eq]
@[simp] theorem Traffic.answerEntry_actions : (tr.answerEntry tb e ans reason value).actions = tr.actions := by
  rw [Traffic.answerEntry_eq]
@[simp] theorem Traffic.answerEntry_tagCounter :
    (tr.answerEntry tb e ans reason value).tagCounter = tr.tagCounter := by
  rw [Traffic.answerEntry_eq]
@[simp] theorem Traffic.answerEntry_history : (tr.answerEntry tb e ans reason value).history = tr.history := by
  rw [Traffic.answerEntry_eq]

end control

/-! ### Toward the field -/

section field

variable {tr : Traffic} {tb : Tables} {q : Queued} {a : Actuator} {sent : Bool} {e : ActionEntry}

@[simp] theorem ActionEntry.withStanding_actuator : (e.withStanding sent).actuator = e.actuator := by
  unfold ActionEntry.withStanding; split <;> rfl
@[simp] theorem ActionEntry.withStanding_direction : (e.withStanding sent).direction = e.direction := by
  unfold ActionEntry.withStanding; split <;> rfl
@[simp] theorem ActionEntry.withStanding_value : (e.withStanding sent).value = e.value := by
  unfold ActionEntry.withStanding; split <;> rfl
@[simp] theorem ActionEntry.withStanding_origin : (e.withStanding sent).origin = e.origin := by
  unfold ActionEntry.withStanding; split <;> rfl

/-- A change of standing leaves an entry WAITING or ISSUED as it was. -/
@[simp] theorem ActionEntry.withStanding_isIssuedFor {b : Actuator} :
    (e.withStanding sent).isIssuedFor b = e.isIssuedFor b := by
  unfold ActionEntry.withStanding ActionEntry.isIssuedFor
  cases h : e.state <;> simp [h]

@[simp] theorem ActionEntry.withStanding_isWaitingFor {b : Actuator} :
    (e.withStanding sent).isWaitingFor b = e.isWaitingFor b := by
  unfold ActionEntry.withStanding ActionEntry.isWaitingFor
  cases h : e.state <;> simp [h]

/-- What the Field Port arbiter does: nothing, or it takes one telegram out of the queue onto the idle line and notes it
SENT. -/
theorem Traffic.fieldArbitrate_cases (tr : Traffic) :
    tr.fieldArbitrate = tr
      ∨ ∃ q rest, tr.field.sending = none ∧ fieldChoice tr.field.queue = some (q, rest)
          ∧ tr.fieldArbitrate
            = { tr with
                field := { tr.field with queue := rest, sending := some { tel := q.tel, endsInReset := false } }
                actions := noteSent q tr.actions } := by
  unfold Traffic.fieldArbitrate
  split
  · exact .inl rfl
  · rename_i h
    split
    · exact .inl rfl
    · rename_i q rest hq
      exact .inr ⟨q, rest, h, hq, rfl⟩

@[simp] theorem Traffic.fieldArbitrate_ctl : tr.fieldArbitrate.ctl = tr.ctl := by
  obtain h | ⟨q, rest, -, -, h⟩ := tr.fieldArbitrate_cases <;> rw [h]
@[simp] theorem Traffic.fieldArbitrate_pool : tr.fieldArbitrate.pool = tr.pool := by
  obtain h | ⟨q, rest, -, -, h⟩ := tr.fieldArbitrate_cases <;> rw [h]
@[simp] theorem Traffic.fieldArbitrate_tagCounter : tr.fieldArbitrate.tagCounter = tr.tagCounter := by
  obtain h | ⟨q, rest, -, -, h⟩ := tr.fieldArbitrate_cases <;> rw [h]
@[simp] theorem Traffic.fieldArbitrate_history : tr.fieldArbitrate.history = tr.history := by
  obtain h | ⟨q, rest, -, -, h⟩ := tr.fieldArbitrate_cases <;> rw [h]

/-- The queue part of a placement at the Field Port, before its arbiter chooses. -/
theorem Traffic.placeField_eq (tb : Tables) (q : Queued) (tr : Traffic) :
    ∃ ctl, tr.placeField tb q
      = Traffic.fieldArbitrate
          { tr with
            ctl := ctl
            field :=
              { tr.field with
                queue := (enqueue q tr.field.queue).1
                overrun := tr.field.overrun || (enqueue q tr.field.queue).2 } } := by
  unfold Traffic.placeField
  simp only
  split
  · exact ⟨_, rfl⟩
  · exact ⟨_, rfl⟩

@[simp] theorem Traffic.placeField_pool : (tr.placeField tb q).pool = tr.pool := by
  obtain ⟨ctl, h⟩ := Traffic.placeField_eq tb q tr; rw [h]; simp
@[simp] theorem Traffic.placeField_tagCounter : (tr.placeField tb q).tagCounter = tr.tagCounter := by
  obtain ⟨ctl, h⟩ := Traffic.placeField_eq tb q tr; rw [h]; simp
@[simp] theorem Traffic.placeField_history : (tr.placeField tb q).history = tr.history := by
  obtain ⟨ctl, h⟩ := Traffic.placeField_eq tb q tr; rw [h]; simp

/-- A list of entries changed in its standings alone. -/
def SameEntries (l m : List ActionEntry) : Prop :=
  ∃ a : Actuator, l = m ∨ l = setStanding a true m

/-- A placement at the Field Port moves of the Action Queue at most the standing of one actuator's ISSUED entry. -/
theorem Traffic.placeField_actions (tb : Tables) (q : Queued) (tr : Traffic) :
    SameEntries (tr.placeField tb q).actions tr.actions := by
  obtain ⟨ctl, h⟩ := Traffic.placeField_eq tb q tr
  rw [h]
  obtain h' | ⟨q', rest, -, -, h'⟩ := Traffic.fieldArbitrate_cases
    { tr with
      ctl := ctl
      field :=
        { tr.field with
          queue := (enqueue q tr.field.queue).1
          overrun := tr.field.overrun || (enqueue q tr.field.queue).2 } }
  · rw [h']; exact ⟨.gate 0 0, .inl rfl⟩
  · rw [h']
    simp only [noteSent]
    split
    · rename_i a d _; exact ⟨a, .inr rfl⟩
    · exact ⟨.gate 0 0, .inl rfl⟩

theorem setStanding_length (l : List ActionEntry) : (setStanding a sent l).length = l.length := by
  simp [setStanding]

/-- A predicate that does not read the standing counts the same entries before and after. -/
theorem setStanding_filter_length {f : ActionEntry → Bool} (hf : ∀ e b, f (e.withStanding b) = f e)
    (l : List ActionEntry) : ((setStanding a sent l).filter f).length = (l.filter f).length := by
  induction l with
  | nil => rfl
  | cons e es ih =>
    simp only [setStanding, List.map_cons, List.filter_cons] at ih ⊢
    have : f (if e.isIssuedFor a then e.withStanding sent else e) = f e := by
      split
      · exact hf e sent
      · rfl
    rw [this]
    split <;> simp [ih]

theorem setStanding_any {f : ActionEntry → Bool} (hf : ∀ e b, f (e.withStanding b) = f e)
    (l : List ActionEntry) : (setStanding a sent l).any f = l.any f := by
  induction l with
  | nil => rfl
  | cons e es ih =>
    simp only [setStanding, List.map_cons, List.any_cons] at ih ⊢
    rw [ih]
    congr 1
    split
    · exact hf e sent
    · rfl

@[simp] theorem Traffic.withdraw_ctl : (tr.withdraw a).ctl = tr.ctl := rfl
@[simp] theorem Traffic.withdraw_pool : (tr.withdraw a).pool = tr.pool := rfl
@[simp] theorem Traffic.withdraw_actions : (tr.withdraw a).actions = tr.actions := rfl
@[simp] theorem Traffic.withdraw_tagCounter : (tr.withdraw a).tagCounter = tr.tagCounter := rfl
@[simp] theorem Traffic.withdraw_history : (tr.withdraw a).history = tr.history := rfl

@[simp] theorem Traffic.removeIssued_ctl : (tr.removeIssued a).ctl = tr.ctl := rfl
@[simp] theorem Traffic.removeIssued_pool : (tr.removeIssued a).pool = tr.pool := rfl
@[simp] theorem Traffic.removeIssued_actions :
    (tr.removeIssued a).actions = tr.actions.eraseP (ActionEntry.isIssuedFor a) := rfl
@[simp] theorem Traffic.removeIssued_tagCounter : (tr.removeIssued a).tagCounter = tr.tagCounter := rfl
@[simp] theorem Traffic.removeIssued_history : (tr.removeIssued a).history = tr.history := rfl

end field

/-! ### Hold Pool -/

section pool

variable {tr : Traffic} {a : Actuator}

@[simp] theorem Traffic.unpark_ctl : (tr.unpark a).ctl = tr.ctl := rfl
@[simp] theorem Traffic.unpark_field : (tr.unpark a).field = tr.field := rfl
@[simp] theorem Traffic.unpark_actions : (tr.unpark a).actions = tr.actions := rfl
@[simp] theorem Traffic.unpark_tagCounter : (tr.unpark a).tagCounter = tr.tagCounter := rfl
@[simp] theorem Traffic.unpark_history : (tr.unpark a).history = tr.history := rfl
@[simp] theorem Traffic.unpark_pool : (tr.unpark a).pool = tr.pool.filter fun e => !e.isFor a := rfl

end pool

end Sys2Proof.Machine
end

