-- ==== Sys2Proof/Laws/Acts.lean ====
section
/-! SUPPORT. Everything the traffic can do within one event, said once: `Act` lists the elementary acts with what is
known when each is taken, `Acts` is a run of them, and each composite operation of the Hold Pool, the Action Queue and
the Interlock Unit is such a run. An invariant of the traffic is proved by cases on `Act` alone. -/

namespace Sys2Proof.Machine

/-- A lookup can give the actuator (R26). -/
def Commanded (tb : Tables) (a : Actuator) : Prop :=
  ∃ station point h, lookup tb station point = some h ∧ h.actuator = some a

/-- What an actuator is taken by: its command point stands (R25), or a received command hit it (R26). -/
def Taken (tb : Tables) (a : Actuator) : Prop := hasCommandPoint tb a = true ∨ Commanded tb a

/-- The verdict lets the command through (R115). -/
def Allowed (vd : Verdict) : Prop := vd.severity = .pass ∨ vd.severity = .clamp

/-- One elementary act of the traffic, seen with `v`. -/
inductive Act (v : View) : Traffic → Traffic → Prop
  /-- A telegram other than an action telegram is placed at the Control Port (R10, R11). -/
  | placeControl (tr : Traffic) (q : Queued) : (∀ a, q.isActionOf a = false) → checkHolds q.tel = true →
      Act v tr (tr.placeControl v.tables q)
  /-- A telegram other than an action telegram is placed at the Field Port (R10, R11). -/
  | placeField (tr : Traffic) (q : Queued) : (∀ a, q.isActionOf a = false) → checkHolds q.tel = true →
      Act v tr (tr.placeField v.tables q)
  /-- A notice is raised, once or as often as the raises of one check coalesce (R165, R124). -/
  | raise (tr : Traffic) (src : NoticeSource) (cls : NoticeClass) (times n : Nat) : sourceFits src cls → 0 < times →
      Act v tr (tr.raiseMany v.tables src cls times n)
  /-- The Control Port line frees (R13). -/
  | freeControl (tr : Traffic) :
      Act v tr
        { tr with
          ctl := ControlSide.arbitrate v.tables.device { tr.ctl with port := { tr.ctl.port with sending := none } } }
  /-- The Field Port line frees (R13). -/
  | freeField (tr : Traffic) : Act v tr (Traffic.fieldArbitrate { tr with field := { tr.field with sending := none } })
  /-- A judged command is offered to the Action Queue at its arrival (R119, R137). -/
  | enlisting (tr : Traffic) (a : Actuator) (n : Nat) (r : Requester) (c : Carried) :
      Commanded v.tables a → Allowed (judge v tr a n) → Act v tr (tr.enlist v a (judge v tr a n).value r c).1
  /-- A command is parked (R127). -/
  | park (tr : Traffic) (a : Actuator) (e : HeldEntry) : Commanded v.tables a → e.actuator = a →
      (judge v tr a (requestedValue e.value)).severity = .hold → (∀ x ∈ tr.pool, x.actuator ≠ a) →
      tr.pool.length < Config.poolCapacity → Act v tr { tr with pool := tr.pool ++ [e] }
  /-- The held entry of an actuator leaves the pool (R128, R132). -/
  | unpark (tr : Traffic) (a : Actuator) : Act v tr (tr.unpark a)
  /-- The held entries of a pass leave the pool (R133). -/
  | unparkPass (tr : Traffic) (p : PassId) : Act v tr { tr with pool := tr.pool.filter fun e => !e.isOf p }
  /-- A round of re-judgement (R129). -/
  | round (tr : Traffic) (p : PassId) : Act v tr (tr.round v p)
  /-- A safe-direction command is taken (R144). -/
  | takeSafe (tr : Traffic) (a : Actuator) (o : Option Requester) (c : Carried) : Taken v.tables a →
      Act v tr (tr.takeSafe v a o c)
  /-- An ISSUED entry is retired by confirmation, and its line promoted (R140). -/
  | retire (tr : Traffic) (a : Actuator) (e : ActionEntry) : issuedEntry tr a = some e → Act v tr (tr.retire v e)
  /-- A failed entry is removed with its successors (R143). -/
  | dropFailed (tr : Traffic) (a : Actuator) : Act v tr (tr.dropFailed v.tables a)
  /-- The overrun flags are cleared (R12). -/
  | clearOverruns (tr : Traffic) :
      Act v tr
        { tr with
          ctl := { tr.ctl with port := { tr.ctl.port with overrun := false } }
          field := { tr.field with overrun := false } }

/-- A run of acts. -/
def Acts (v : View) : Traffic → Traffic → Prop := Relation.ReflTransGen (Act v)

section

variable {v : View} {tr tr' tr'' : Traffic} {a : Actuator} {p : PassId}

theorem Acts.rfl' : Acts v tr tr := .refl

theorem Acts.one (h : Act v tr tr') : Acts v tr tr' := .single h

theorem Acts.append (h : Acts v tr tr') (h' : Acts v tr' tr'') : Acts v tr tr'' := h.trans h'

theorem Acts.then (h : Acts v tr tr') (h' : Act v tr' tr'') : Acts v tr tr'' := h.tail h'

/-- A property that every act keeps holds after a run. -/
theorem Acts.keeps {P : Traffic → Prop} (hP : ∀ t u, Act v t u → P t → P u) (h : Acts v tr tr') (h0 : P tr) : P tr' := by
  induction h with
  | refl => exact h0
  | tail _ h2 ih => exact hP _ _ h2 ih

/-- A fold of operations that are each a run of acts is a run of acts. -/
theorem Acts.foldl {α : Type} {f : Traffic → α → Traffic} (l : List α)
    (hf : ∀ x ∈ l, ∀ t, Acts v t (f t x)) : ∀ t, Acts v t (l.foldl f t) := by
  induction l with
  | nil => exact fun t => .refl
  | cons x xs ih =>
    intro t
    exact (hf x (by simp) t).trans (ih (fun y hy => hf y (by simp [hy])) _)

/-! ### The check of what the part originates (R5) -/

@[simp] theorem checkedBytes_withCheck (t : Telegram) : checkedBytes (withCheck t) = checkedBytes t := rfl

/-- R5: a telegram that receives a fresh check passes it. -/
@[simp] theorem checkHolds_withCheck (t : Telegram) : checkHolds (withCheck t) = true := by
  simp only [checkHolds, checkedBytes_withCheck]
  simp [withCheck]

@[simp] theorem checkHolds_verdictTelegram (tb : Tables) (r : Requester) (ans : Answer) (reason : Reason) (n : Nat) :
    checkHolds (verdictTelegram tb r ans reason n) = true := checkHolds_withCheck _

@[simp] theorem checkHolds_replyTelegram (own : Byte) (t : Telegram) (st : Status) (x : Word) :
    checkHolds (replyTelegram own t st x) = true := checkHolds_withCheck _

@[simp] theorem checkHolds_noticeTelegram (dev : DeviceParams) (e : NoticeEntry) :
    checkHolds (noticeTelegram dev e) = true := checkHolds_withCheck _

@[simp] theorem checkHolds_actionTelegram (own : Byte) (cp : PointEntry) (e : ActionEntry) (n : Nat) :
    checkHolds (actionTelegram own cp e n) = true := checkHolds_withCheck _

/-! ### Composite operations -/

theorem answer_acts (r : Requester) (ans : Answer) (reason : Reason) (n : Nat) (tr : Traffic) :
    Acts v tr (tr.answer v.tables r ans reason n) :=
  .one (.placeControl tr _ (fun _ => rfl) (checkHolds_verdictTelegram _ _ _ _ _))

theorem supersede_acts (a : Actuator) (tr : Traffic) : Acts v tr (tr.supersede v.tables a) := by
  unfold Traffic.supersede
  split
  · exact (Acts.one (.unpark tr a)).append (answer_acts _ _ _ _ _)
  · exact .refl

/-- After a supersede no entry of the actuator is held. -/
theorem supersede_pool (tb : Tables) (a : Actuator) (tr : Traffic) :
    ∀ x ∈ (tr.supersede tb a).pool, x.actuator ≠ a := by
  unfold Traffic.supersede
  split
  · intro x hx
    simp only [Traffic.answer_pool, Traffic.unpark_pool, List.mem_filter] at hx
    simpa [HeldEntry.isFor] using hx.2
  · rename_i h
    intro x hx
    simpa [HeldEntry.isFor] using List.find?_eq_none.mp h x hx

theorem mostSevere_refuse (r : Reason) (l : List (Severity × Reason)) :
    mostSevere ((.refuse, r) :: l) = (.refuse, r) := rfl

/-- R115: the severity of a verdict that is not REFUSE says that the pass is RUNNING or ALERT. -/
theorem judge_live {n : Nat} (h : (judge v tr a n).severity ≠ .refuse) :
    (v.passes.get a.pass).mode.isLive = true := by
  by_contra hl
  apply h
  have hs : stateCheck v a = [(.refuse, .passState)] := by simp [stateCheck, hl]
  unfold judge checks
  rw [hs]
  rfl

theorem park_acts (t : Telegram) (reason : Reason) (tr : Traffic) (ha : Commanded v.tables a)
    (hj : (judge v tr a (requestedValue t.value)).severity = .hold) (hp : ∀ x ∈ tr.pool, x.actuator ≠ a) :
    Acts v tr (tr.park v a t reason) := by
  unfold Traffic.park
  split
  · rename_i hl
    let e : HeldEntry :=
      { actuator := a, requester := requesterOf t, value := t.value, carried := carriedOf t, timer := holdTime v a,
        reason := reason }
    exact (Acts.one (.park tr a e ha rfl hj hp hl)).append (answer_acts _ _ _ _ _)
  · exact answer_acts _ _ _ _ _

theorem arriveNonSafe_acts (t : Telegram) (tr : Traffic) (ha : Commanded v.tables a)
    (hp : ∀ x ∈ tr.pool, x.actuator ≠ a) : Acts v tr (tr.arriveNonSafe v a t) := by
  unfold Traffic.arriveNonSafe
  have admitted : ∀ (ok : Allowed (judge v tr a (requestedValue t.value))) (f : Traffic → Traffic),
      (∀ u, Acts v u (f u)) →
      Acts v tr
        (match tr.enlist v a (judge v tr a (requestedValue t.value)).value (requesterOf t) (carriedOf t) with
          | (tr', some reason) => tr'.answer v.tables (requesterOf t) .refused reason 0
          | (tr', none) => f tr') := by
    intro ok f hf
    have h1 := Acts.one (.enlisting tr a _ (requesterOf t) (carriedOf t) ha ok)
    revert h1
    split
    · rename_i tr' reason he
      intro h1
      rw [he] at h1
      exact h1.append (answer_acts _ _ _ _ _)
    · rename_i tr' he
      intro h1
      rw [he] at h1
      exact h1.append (hf _)
  unfold arrivalVerdict
  simp only
  by_cases hz : (judge v tr a (requestedValue t.value)).severity = .hold ∧ holdTime v a = 0
  · rw [if_pos hz]
    exact answer_acts _ _ _ _ _
  · rw [if_neg hz]
    split
    · exact answer_acts _ _ _ _ _
    · rename_i h; exact park_acts t _ tr ha h hp
    · rename_i h; exact admitted (.inr h) (fun u => u.answer _ _ _ _ _) (fun u => answer_acts _ _ _ _ _)
    · rename_i h; exact admitted (.inl h) (fun u => u) (fun u => .refl)

theorem arrive_acts (t : Telegram) (tr : Traffic) (ha : Commanded v.tables a) : Acts v tr (tr.arrive v a t) := by
  unfold Traffic.arrive
  simp only
  split
  · exact (supersede_acts a tr).then (.takeSafe _ a _ _ (.inr ha))
  · exact (supersede_acts a tr).append (arriveNonSafe_acts t _ ha (supersede_pool _ a tr))

theorem expireHeld_acts (a : Actuator) (tr : Traffic) : Acts v tr (tr.expireHeld v.tables a) := by
  unfold Traffic.expireHeld
  split
  · exact (Acts.one (.unpark tr a)).append (answer_acts _ _ _ _ _)
  · exact .refl

theorem purge_acts (p : PassId) (tr : Traffic) : Acts v tr (tr.purge v.tables p) :=
  (Acts.one (.unparkPass tr p)).append (Acts.foldl _ (fun _ _ t => answer_acts _ _ _ _ t) _)

/-- R133: no held entry of a purged pass is left. -/
theorem purge_pool (tb : Tables) (p : PassId) (tr : Traffic) :
    (tr.purge tb p).pool = tr.pool.filter fun e => !e.isOf p := by
  unfold Traffic.purge
  generalize tr.pool.filter (HeldEntry.isOf p) = l
  have : ∀ (l : List HeldEntry) (t : Traffic),
      (l.foldl (fun t e => t.answer tb e.requester .refused .trip 0) t).pool = t.pool := by
    intro l
    induction l with
    | nil => intro t; rfl
    | cons e es ih => intro t; rw [List.foldl_cons, ih]; rfl
  rw [this]

/-- R133: a purge answers, and touches neither the Field Port nor the Action Queue. -/
theorem purge_actions (tb : Tables) (p : PassId) (tr : Traffic) : (tr.purge tb p).actions = tr.actions := by
  unfold Traffic.purge
  generalize tr.pool.filter (HeldEntry.isOf p) = l
  have : ∀ (l : List HeldEntry) (t : Traffic),
      (l.foldl (fun t e => t.answer tb e.requester .refused .trip 0) t).actions = t.actions := by
    intro l
    induction l with
    | nil => intro t; rfl
    | cons e es ih => intro t; rw [List.foldl_cons, ih]; rfl
  rw [this]

theorem confirm_acts (a : Actuator) (tr : Traffic) : Acts v tr (tr.confirm v a) := by
  unfold Traffic.confirm
  split
  · rename_i e he
    split
    · exact .one (.retire tr a e he)
    · exact .refl
  · exact .refl

theorem originate_acts (a : Actuator) (tr : Traffic) : Acts v tr (tr.originate v a) := by
  unfold Traffic.originate
  split
  · rename_i h; exact .one (.takeSafe tr a _ _ (.inl h))
  · exact .refl

theorem sourceFits_pass {p : PassId} {cls : NoticeClass} (h : cls.ofDevice = false) : sourceFits (.pass p) cls := by
  simp [sourceFits, h]

/-- A single raise. -/
theorem Act.raiseOnce (tr : Traffic) (src : NoticeSource) (cls : NoticeClass) (n : Nat) (h : sourceFits src cls) :
    Act v tr (tr.raise v.tables src cls n) := .raise tr src cls 1 n h Nat.one_pos

theorem standingCheck_acts (p : PassId) (tr : Traffic) : Acts v tr (tr.standingCheck v p) := by
  unfold Traffic.standingCheck
  split
  · simp only
    split
    · rename_i h
      exact (Acts.foldl _ (fun f _ t => originate_acts f.1 t) tr).then
        (.raise _ _ _ _ _ (sourceFits_pass rfl) (List.length_pos_of_mem (List.mem_of_getLast? h)))
    · exact .refl
  · exact .refl

theorem change_acts (p : PassId) (b : Bool) (tr : Traffic) : Acts v tr (tr.change v p b) := by
  unfold Traffic.change
  split
  · exact (standingCheck_acts p tr).then (.round _ p)
  · exact .one (.round tr p)

end

end Sys2Proof.Machine
end

