-- ==== Sys2Proof/Laws/Columns.lean ====
section
/-! SUPPORT. What each operation of the Column Store does to a column's tonnage (R50) and to its shape (R32, R33): one
balance lemma and one soundness lemma per operation. -/

namespace Sys2Proof.Machine

/-! ### Tonnage of a list of charges -/

/-- The tonnage of a list of charges (R34). -/
def tonnage (l : List Charge) : Nat := (l.map Charge.remaining).sum

@[simp] theorem tonnage_nil : tonnage [] = 0 := rfl
@[simp] theorem tonnage_cons (c : Charge) (l : List Charge) : tonnage (c :: l) = c.remaining + tonnage l := by
  simp [tonnage]
@[simp] theorem tonnage_append (l m : List Charge) : tonnage (l ++ m) = tonnage l + tonnage m := by
  simp [tonnage]
theorem columnTotal_eq (c : Column) : columnTotal c = tonnage c.charges := rfl

/-- R38, R42: what a merge adds to a charge and what it leaves over make up the tonnage merged. -/
theorem absorb_remaining (now : Word) (q : Nat) (w : Wetness) (b : Bool) (c : Charge) :
    (c.absorb now q w b).remaining + excessOf (c.remaining + q) = c.remaining + q := by
  simp only [Charge.absorb, excessOf]
  omega

/-- R38: a merge at capacity, tonnage by tonnage. -/
theorem mergeTop_tonnage (now : Word) (q : Nat) (w : Wetness) (b : Bool) :
    ∀ l, tonnage (mergeTop now q w b l).1 + (mergeTop now q w b l).2 = tonnage l + q := by
  intro l
  induction l with
  | nil => simp [mergeTop]
  | cons c cs ih =>
    cases cs with
    | nil =>
      have := absorb_remaining now q w b c
      simp only [mergeTop, tonnage_cons, tonnage_nil]
      omega
    | cons d ds =>
      simp only [mergeTop, tonnage_cons] at ih ⊢
      omega

/-- R40: a draw takes what it can and falls short of the rest. -/
theorem takeFrom_tonnage : ∀ (d : Nat) (l : List Charge), tonnage (takeFrom d l).1 + d = tonnage l + (takeFrom d l).2 := by
  intro d l
  induction l generalizing d with
  | nil => simp [takeFrom]
  | cons c cs ih =>
    unfold takeFrom
    split
    · simp only [tonnage_cons]
      omega
    · have := ih (d - c.remaining)
      simp only [tonnage_cons]
      omega

/-- R40: a draw that leaves a charge has no shortfall. -/
theorem takeFrom_short (d : Nat) (l : List Charge) : (takeFrom d l).1 ≠ [] → (takeFrom d l).2 = 0 := by
  induction l generalizing d with
  | nil => simp [takeFrom]
  | cons c cs ih =>
    unfold takeFrom
    split
    · simp
    · exact ih _

/-- R42: the residue rule moves tonnage upward, and spills what does not fit. -/
theorem residueRule_tonnage (r : Nat) (now : Word) (head : Charge) (above : List Charge) :
    tonnage (residueRule r now head above).1 + (residueRule r now head above).2 = head.remaining + tonnage above := by
  induction above generalizing head with
  | nil => simp [residueRule]
  | cons next above ih =>
    unfold residueRule
    split
    · have h1 := ih (next.absorb now head.remaining head.wetness head.oversize)
      have h2 := absorb_remaining now head.remaining head.wetness head.oversize next
      simp only [tonnage_cons]
      omega
    · simp

/-! ### The balance of R50 -/

/-- Base + Tipped + Shortfall − what stands in the column, on the bars, drawn and spilled: 0 when the account balances.
Kept as two sums. -/
def Column.credit (c : Column) : Nat := c.base + c.tipped + c.shortfall

def Column.debit (c : Column) : Nat := columnTotal c + accumTotal c + c.drawn + c.spill

theorem balanced_iff (c : Column) : c.balanced ↔ c.debit = c.credit := Iff.rfl

theorem addTotal_lt {a b : Nat} (h : addTotal a b < Config.totalCeiling) :
    a < Config.totalCeiling ∧ addTotal a b = a + b := by
  unfold addTotal at h ⊢
  simp only [Config.totalCeiling] at h ⊢
  omega

/-- The tonnage on the three bars. -/
def barsTotal (a : Trio Accumulator) : Nat := a.at0.tonnage + a.at1.tonnage + a.at2.tonnage

theorem accumTotal_eq (c : Column) : accumTotal c = barsTotal c.accums := rfl

theorem barsTotal_set (b : Trio Accumulator) (t : TipId) (a : Accumulator) :
    barsTotal (b.set t a) + (b.get t).tonnage = barsTotal b + a.tonnage := by
  fin_cases t <;> simp [barsTotal, Trio.set, Trio.get] <;> omega

/-- R37, R38, R50: a placement adds to the column what it does not spill. -/
theorem place_balance (c : Column) (now : Word) (o : Origin) (w : Wetness) (b : Bool) (q : Nat) :
    let c' := (c.place now o w b q).1
    (c'.spill < Config.totalCeiling → c.spill < Config.totalCeiling ∧ columnTotal c' + c'.spill = columnTotal c + q + c.spill)
      ∧ c'.accums = c.accums ∧ c'.base = c.base ∧ c'.tipped = c.tipped ∧ c'.drawn = c.drawn
      ∧ c'.shortfall = c.shortfall ∧ c'.surveyed = c.surveyed := by
  unfold Column.place
  split
  · refine ⟨fun h => ⟨h, ?_⟩, rfl, rfl, rfl, rfl, rfl, rfl⟩
    simp [Column.append, columnTotal_eq]
  · refine ⟨fun h => ?_, rfl, rfl, rfl, rfl, rfl, rfl⟩
    have := mergeTop_tonnage now q w b c.charges
    obtain ⟨h1, h2⟩ := addTotal_lt h
    refine ⟨h1, ?_⟩
    simp only [Column.spilled, columnTotal_eq] at h2 ⊢
    omega

/-- R35, R50: oversize added to the bars, what does not fit spilled. -/
theorem accumulate_balance (c : Column) (t : TipId) (q : Nat) (w : Wetness) :
    let c' := (c.accumulate t q w).1
    (c'.spill < Config.totalCeiling → c.spill < Config.totalCeiling ∧ accumTotal c' + c'.spill = accumTotal c + q + c.spill)
      ∧ c'.charges = c.charges ∧ c'.base = c.base ∧ c'.tipped = c.tipped ∧ c'.drawn = c.drawn
      ∧ c'.shortfall = c.shortfall ∧ c'.surveyed = c.surveyed ∧ c'.counter = c.counter := by
  unfold Column.accumulate
  simp only
  refine ⟨fun h => ?_, rfl, rfl, rfl, rfl, rfl, rfl, rfl⟩
  obtain ⟨h1, h2⟩ := addTotal_lt h
  refine ⟨h1, ?_⟩
  have h3 := barsTotal_set c.accums t
    { tonnage := (c.accums.get t).tonnage + min q (Config.tonnageCeiling - (c.accums.get t).tonnage),
      wetness := (c.accums.get t).wetness.wetter w }
  dsimp only at h3
  simp only [Column.spilled, accumTotal_eq] at h2 ⊢
  omega

/-- R36: the oversize of a tip with a share of at most 100 is at most the payload. -/
theorem oversizeOf_le (m : Rounding) (p s : Nat) (h : s ≤ 100) : oversizeOf m p s ≤ p := by
  have h0 : p * s ≤ p * 100 := Nat.mul_le_mul_left p h
  have h1 : p * s / 100 ≤ p := by omega
  have h2 : p * s / 100 = p → p * s % 100 = 0 := by omega
  unfold oversizeOf roundDiv
  cases m <;> simp only
  · split
    · exact h1
    · split
      · by_contra hc
        have : p * s / 100 = p := by omega
        have := h2 this
        omega
      · split
        · exact h1
        · by_contra hc
          have : p * s / 100 = p := by omega
          have := h2 this
          omega
  · exact h1
  · split
    · exact h1
    · rename_i hr
      by_contra hc
      exact hr (h2 (by omega))

/-! ### Soundness of charges and columns (R32, R33, R35) -/

theorem wetter_dry (w : Wetness) : Wetness.dry.wetter w = w := by cases w <;> rfl

theorem absorb_sound {now : Word} {q : Nat} {w : Wetness} {b : Bool} {c : Charge} (h : c.sound) :
    (c.absorb now q w b).sound := by
  obtain ⟨h1, h2, h3⟩ := h
  simp only [Charge.sound, Charge.absorb] at *
  simp only [Config.tonnageCeiling] at *
  omega

/-- R38: a merge at capacity keeps every charge sound, the length and the numbers. -/
theorem mergeTop_sound {now : Word} {q : Nat} {w : Wetness} {b : Bool} {n : Half} :
    ∀ {l : List Charge}, (∀ x ∈ l, x.sound) → numbersRun l n →
      (mergeTop now q w b l).1.length = l.length ∧ (∀ x ∈ (mergeTop now q w b l).1, x.sound)
        ∧ numbersRun (mergeTop now q w b l).1 n
        ∧ (mergeTop now q w b l).1.map Charge.number = l.map Charge.number := by
  intro l
  induction l with
  | nil => intro h1 h2; exact ⟨rfl, h1, h2, rfl⟩
  | cons c cs ih =>
    cases cs with
    | nil =>
      intro h1 h2
      refine ⟨rfl, ?_, h2, rfl⟩
      intro x hx
      simp only [mergeTop, List.mem_singleton] at hx
      subst hx
      exact absorb_sound (h1 c (by simp))
    | cons d ds =>
      intro h1 h2
      obtain ⟨i1, i2, i3, i4⟩ := ih (fun x hx => h1 x (by simp [hx])) h2.2
      simp only [mergeTop] at i1 i2 i3 i4 ⊢
      refine ⟨by simp [i1], ?_, ?_, by simp [i4]⟩
      · intro x hx
        simp only [List.mem_cons] at hx
        rcases hx with rfl | hx
        · exact h1 _ (by simp)
        · exact i2 _ (by simpa using hx)
      · generalize hg : (mergeTop now q w b (d :: ds)).1 = m at *
        cases m with
        | nil => simp at i1
        | cons e es =>
          refine ⟨?_, i3⟩
          simp only [List.map_cons, List.cons.injEq] at i4
          rw [i4.1]
          exact h2.1

/-- R33: the numbers of the charges above the head run on. -/
theorem numbersRun_tail {c : Charge} {cs : List Charge} {n : Half} (h : numbersRun (c :: cs) n) : numbersRun cs n := by
  cases cs with
  | nil => trivial
  | cons d ds => exact h.2

/-- R33: a charge appended with the counter's value runs on. -/
theorem numbersRun_append {l : List Charge} {n : Half} {c : Charge} (h : numbersRun l n) (hc : c.number = n) :
    numbersRun (l ++ [c]) (n + 1) := by
  induction l with
  | nil => show n + 1 = c.number + 1; rw [hc]
  | cons d ds ih =>
    cases ds with
    | nil => exact ⟨by rw [hc]; exact h, by show n + 1 = c.number + 1; rw [hc]⟩
    | cons e es => exact ⟨h.1, ih h.2⟩

/-- A change of the head that keeps its number keeps the run. -/
theorem numbersRun_head {c d : Charge} {cs : List Charge} {n : Half} (h : numbersRun (c :: cs) n)
    (hd : d.number = c.number) : numbersRun (d :: cs) n := by
  cases cs with
  | nil => show n = d.number + 1; rw [hd]; exact h
  | cons e es => exact ⟨by rw [hd]; exact h.1, h.2⟩

theorem takeFrom_sound {n : Half} : ∀ {d : Nat} {l : List Charge}, (∀ x ∈ l, x.sound) → numbersRun l n →
    (takeFrom d l).1.length ≤ l.length ∧ (∀ x ∈ (takeFrom d l).1, x.sound) ∧ numbersRun (takeFrom d l).1 n := by
  intro d l
  induction l generalizing d with
  | nil => intro h1 h2; exact ⟨Nat.le_refl _, h1, h2⟩
  | cons c cs ih =>
    intro h1 h2
    unfold takeFrom
    split
    · rename_i hd
      refine ⟨Nat.le_refl _, ?_, numbersRun_head h2 rfl⟩
      intro x hx
      simp only [List.mem_cons] at hx
      rcases hx with rfl | hx
      · obtain ⟨k1, k2, k3⟩ := h1 c (by simp)
        simp only [Charge.sound]
        omega
      · exact h1 x (by simp [hx])
    · obtain ⟨i1, i2, i3⟩ := ih (d := d - c.remaining) (fun x hx => h1 x (by simp [hx])) (numbersRun_tail h2)
      exact ⟨by simp only [List.length_cons]; omega, i2, i3⟩

theorem residueRule_sound {r : Nat} {now : Word} {n : Half} : ∀ {head : Charge} {above : List Charge}, head.sound →
    (∀ x ∈ above, x.sound) → numbersRun (head :: above) n →
    (residueRule r now head above).1.length ≤ above.length + 1 ∧ (∀ x ∈ (residueRule r now head above).1, x.sound)
      ∧ numbersRun (residueRule r now head above).1 n := by
  intro head above
  induction above generalizing head with
  | nil =>
    intro h1 _ h3
    exact ⟨Nat.le_refl _, by simpa [residueRule] using h1, h3⟩
  | cons next above ih =>
    intro h1 h2 h3
    unfold residueRule
    split
    · obtain ⟨i1, i2, i3⟩ := ih (head := next.absorb now head.remaining head.wetness head.oversize)
        (absorb_sound (h2 next (by simp))) (fun x hx => h2 x (by simp [hx])) (numbersRun_head h3.2 rfl)
      exact ⟨by simp only [List.length_cons]; omega, i2, i3⟩
    · refine ⟨Nat.le_refl _, ?_, h3⟩
      intro x hx
      simp only [List.mem_cons] at hx
      rcases hx with rfl | rfl | hx
      · exact h1
      · exact h2 _ (by simp)
      · exact h2 _ (by simp [hx])

/-- R37, R38: a placement of 1 to 60000 keeps the column sound. -/
theorem place_sound {c : Column} {now : Word} {o : Origin} {w : Wetness} {b : Bool} {q : Nat} (h : c.sound)
    (h1 : 1 ≤ q) (h2 : q ≤ Config.tonnageCeiling) : (c.place now o w b q).1.sound := by
  obtain ⟨k1, k2, k3, k4⟩ := h
  unfold Column.place
  split
  · rename_i hl
    refine ⟨?_, ?_, numbersRun_append k3 rfl, k4⟩
    · simp only [Column.append, List.length_append, List.length_cons, List.length_nil]
      omega
    · intro x hx
      simp only [Column.append, List.mem_append, List.mem_singleton] at hx
      rcases hx with hx | rfl
      · exact k2 x hx
      · exact ⟨h1, Nat.le_refl _, h2⟩
  · obtain ⟨i1, i2, i3, -⟩ := mergeTop_sound (now := now) (q := q) (w := w) (b := b) k2 k3
    exact ⟨by simp only [Column.spilled, i1]; exact k1, i2, i3, k4⟩

/-- R35: oversize of at least 1 keeps the accumulators sound. -/
theorem accumulate_sound {c : Column} {t : TipId} {q : Nat} {w : Wetness} (h : c.sound) (h1 : 1 ≤ q) :
    (c.accumulate t q w).1.sound := by
  obtain ⟨k1, k2, k3, k4⟩ := h
  unfold Column.accumulate
  refine ⟨k1, k2, k3, fun t' => ?_⟩
  simp only [Column.spilled, Trio.get_set]
  split
  · obtain ⟨m1, m2⟩ := k4 t
    simp only [Accumulator.sound, Config.tonnageCeiling] at *
    refine ⟨by omega, fun hz => ?_⟩
    exfalso
    omega
  · exact k4 t'

end Sys2Proof.Machine
end

