-- ==== Sys2Proof/Laws/Receive.lean ====
section
/-! SUPPORT. What a telegram's fate says of it, and that every command that is a telegram's arrival does what receiving
the telegram does (log entry 2): one lemma per row, and one for all. -/

namespace Sys2Proof.Machine

variable {port : PortId} {t : Telegram} {s : State} {a : Actuator} {h : Hit} {r : Request}

/-! ### What a fate says -/

/-- R5: only a telegram that fails its check has the first fate. -/
theorem fate_checked (hf : fate port t s ≠ .badCheck) : checkHolds t = true := by
  by_contra hc
  apply hf
  simp [fate, hc]

/-- R17: a telegram with any fate but the first two arrives while no DEVICE-RESET is pending. -/
theorem fate_notPending (h1 : fate port t s ≠ .badCheck) (h2 : fate port t s ≠ .discarded) :
    s.resetPending = false := by
  by_contra hp
  apply h2
  simp [fate, fate_checked h1, hp]

theorem commandFate_command {o : Option Hit} (hf : commandFate s o = .command a) :
    ∃ h, o = some h ∧ h.actuator = some a ∧ (s.pass h.pass).mode ≠ .unconfigured := by
  unfold commandFate at hf
  split at hf
  · cases hf
  · rename_i h
    split at hf
    · cases hf
    · rename_i b hb
      split at hf
      · cases hf
      · rename_i hm
        injection hf with e
        subst e
        exact ⟨h, rfl, hb, hm⟩

theorem commandFate_ne_report {o : Option Hit} : commandFate s o ≠ .report h := by
  unfold commandFate
  split
  · simp
  · split
    · simp
    · split <;> simp

theorem reportFate_report {o : Option Hit} (hf : reportFate s o = .report h) :
    o = some h ∧ h.role.isCommand = false ∧ (s.pass h.pass).mode ≠ .unconfigured := by
  unfold reportFate at hf
  split at hf
  · cases hf
  · rename_i h'
    split at hf
    · cases hf
    · rename_i hm
      injection hf with e
      subst e
      push Not at hm
      exact ⟨rfl, by simpa using hm.1, hm.2⟩

theorem reportFate_ne_command {o : Option Hit} : reportFate s o ≠ .command a := by
  unfold reportFate
  split
  · simp
  · split <;> simp

theorem commandFate_ne_request {o : Option Hit} : commandFate s o ≠ .request r := by
  unfold commandFate
  split
  · simp
  · split
    · simp
    · split <;> simp

theorem reportFate_ne_request {o : Option Hit} : reportFate s o ≠ .request r := by
  unfold reportFate
  split
  · simp
  · split <;> simp

/-- R26: a command was received on the Control Port, for an actuator its lookup hit, of a configured pass. -/
theorem fate_command (hf : fate port t s = .command a) :
    port = .control ∧ ∃ h, lookup s.tables t.dest t.point = some h ∧ h.actuator = some a
      ∧ (s.pass h.pass).mode ≠ .unconfigured := by
  unfold fate at hf
  split at hf <;> try cases hf
  split at hf <;> try cases hf
  split at hf <;> try cases hf
  split at hf <;> try cases hf
  split at hf
  · split at hf
    · cases port <;> cases hf
    · cases hf
  · split at hf
    · split at hf
      · exact ⟨rfl, commandFate_command hf⟩
      · cases hf
    · split at hf
      · exact absurd hf reportFate_ne_command
      · cases hf

/-- R28: an applied report was received on the Field Port, and its lookup hit a report role of a configured pass. -/
theorem fate_report (hf : fate port t s = .report h) :
    port = .field ∧ lookup s.tables t.src t.point = some h ∧ h.role.isCommand = false
      ∧ (s.pass h.pass).mode ≠ .unconfigured := by
  unfold fate at hf
  split at hf <;> try cases hf
  split at hf <;> try cases hf
  split at hf <;> try cases hf
  split at hf <;> try cases hf
  split at hf
  · split at hf
    · cases port <;> cases hf
    · cases hf
  · split at hf
    · split at hf
      · exact absurd hf commandFate_ne_report
      · cases hf
    · split at hf
      · exact ⟨rfl, reportFate_report hf⟩
      · cases hf

/-- R7: a request was received on the Control Port, addressed to the own station. -/
theorem fate_request (hf : fate port t s = .request r) :
    port = .control ∧ r = requestOf t ∧ t.dest = s.tables.device.ownStation ∧ t.kind = kindMRQ := by
  unfold fate at hf
  split at hf <;> try cases hf
  split at hf <;> try cases hf
  split at hf <;> try cases hf
  split at hf <;> try cases hf
  split at hf
  · rename_i hd
    split at hf
    · rename_i hk
      split at hf
      · injection hf with e
        exact ⟨rfl, e.symm, hd, hk⟩
      · cases hf
    · cases hf
  · split at hf
    · split at hf
      · exact absurd hf commandFate_ne_request
      · cases hf
    · split at hf
      · exact absurd hf reportFate_ne_request
      · cases hf

/-- R8: a REFUSED-PORT answer is for a telegram received on the Field Port. -/
theorem fate_refusedPort (hf : fate port t s = .refusedPort) : port = .field := by
  cases port
  · exfalso
    unfold fate at hf
    split at hf <;> try cases hf
    split at hf <;> try cases hf
    split at hf <;> try cases hf
    split at hf <;> try cases hf
    split at hf
    · split at hf <;> cases hf
    · simp only at hf
      split at hf
      · revert hf
        unfold commandFate
        split
        · simp
        · split
          · simp
          · split <;> simp
      · cases hf
  · rfl

/-! ### Requests (R169 to R171) -/

/-- The fields that a WRITE-ENTRY row of its own is for. -/
def TableField.isParticular : TableField → Bool
  | .point _ _ | .param _ .configured | .param _ .len | .grizzly _ _ | .device .silenceTime => true
  | _ => false

theorem writeRequest_writeEntry {o : Option TableField} {f : TableField}
    (hr : writeRequest o = .writeEntry (some f)) : f.isParticular = false := by
  unfold writeRequest at hr
  split at hr <;> try cases hr
  rename_i h1 h2 h3 h4 h5 h6
  cases f with
  | point i sel =>
    by_cases hs : sel = .valid
    · subst hs; exact absurd rfl (h1 i)
    · exact absurd rfl (h2 i sel)
  | device sel =>
    cases sel
    · rfl
    · rfl
    · exact absurd rfl h6
  | noticeEnable _ => rfl
  | noticePriority _ => rfl
  | param p sel =>
    cases sel <;> first | rfl | exact absurd rfl (h3 p) | exact absurd rfl (h4 p)
  | cell _ _ _ => rfl
  | holdTime _ _ => rfl
  | opening _ _ => rfl
  | grizzly p n => exact absurd rfl (h5 p n)

/-- A WRITE-ENTRY of the plain row never names a field with a row of its own. -/
theorem requestOf_writeEntry {f : TableField} (hr : requestOf t = .writeEntry (some f)) : f.isParticular = false := by
  unfold requestOf at hr
  split at hr <;> try cases hr
  · split at hr <;> cases hr
  · exact writeRequest_writeEntry hr

/-- A write of a Point Table field other than Valid. -/
theorem requestOf_writePointField {i : Fin 128} {sel : PointSel} (hr : requestOf t = .writePointField i sel) :
    sel ≠ .valid := by
  unfold requestOf at hr
  split at hr <;> try cases hr
  · split at hr <;> cases hr
  · unfold writeRequest at hr
    split at hr <;> try cases hr
    rename_i h1 _
    rintro rfl
    exact h1 rfl

/-! ### Rows and receipt -/

theorem execLineCheckFail_eq : execLineCheckFail port t s = .next (receive port t s) := by
  unfold execLineCheckFail receive
  split
  · rename_i h; rw [h]; rfl
  · rfl

theorem execInvalidAddress_eq : execInvalidAddress port t s = .next (receive port t s) := by
  unfold execInvalidAddress receive
  split
  · rename_i h; rw [h]; rfl
  · rfl

theorem execRelay_eq : execRelay port t s = .next (receive port t s) := by
  unfold execRelay receive
  split
  · rename_i h; rw [h]; rfl
  · rfl

theorem execBroadcast_eq : execBroadcast port t s = .next (receive port t s) := by
  unfold execBroadcast receive
  split
  · rename_i h; rw [h]; rfl
  · rfl

theorem execRefusedPort_eq : execRefusedPort t s = .next (receive .field t s) := by
  unfold execRefusedPort receive
  split
  · rename_i h; rw [h]; rfl
  · rfl

theorem execOwnStationOtherKind_eq : execOwnStationOtherKind port t s = .next (receive port t s) := by
  unfold execOwnStationOtherKind receive
  split
  · rename_i h; rw [h]; rfl
  · rfl

theorem execDiscardWhileResetPending_eq : execDiscardWhileResetPending port t s = .next (receive port t s) := by
  unfold execDiscardWhileResetPending receive
  split
  · rename_i h; rw [h]; rfl
  · rfl

theorem execGateSet_eq : execGateSet t s = .next (receive .control t s) := by
  unfold execGateSet receive
  split
  · rename_i h; rw [h]; rfl
  · rfl

theorem execSignalSet_eq : execSignalSet t s = .next (receive .control t s) := by
  unfold execSignalSet receive
  split
  · rename_i h; rw [h]; rfl
  · rfl

theorem execBreakerSet_eq : execBreakerSet t s = .next (receive .control t s) := by
  unfold execBreakerSet receive
  split
  · rename_i h; rw [h]; rfl
  · rfl

/-- A report row does what receiving its telegram does. -/
theorem onReport_eq (role : Role) : onReport role (reportEffect role) t s = receive .field t s := by
  unfold onReport receive
  split
  · rename_i h hf
    rw [hf]
    split
    · rename_i hr; subst hr; rfl
    · rfl
  · rfl

/-- The state a request leaves, with its answer placed. -/
theorem deal_request : deal port t s (.request r) = respond t r.isReset (requestReply r t (heard port s)) := rfl


theorem execUnknownRequest_eq : execUnknownRequest t s = .next (receive .control t s) := by
  unfold execUnknownRequest receive
  split
  · rename_i h; rw [h]; rfl
  · rfl

theorem execReadItem_eq : execReadItem t s = .next (receive .control t s) := by
  unfold execReadItem receive
  split
  · rename_i h; rw [h]; rfl
  · rfl

theorem execTableRead_eq : execTableRead t s = .next (receive .control t s) := by
  unfold execTableRead receive
  split
  · rename_i h; rw [h]; rfl
  · rfl

theorem execWriteEntry_eq : execWriteEntry t s = .next (receive .control t s) := by
  unfold execWriteEntry receive
  split
  · rename_i h; rw [h]; rfl
  · rfl

theorem execWriteValid_eq : execWriteValid t s = .next (receive .control t s) := by
  unfold execWriteValid receive
  split
  · rename_i h; rw [h]; rfl
  · rfl

theorem execWritePointField_eq : execWritePointField t s = .next (receive .control t s) := by
  unfold execWritePointField receive
  split
  · rename_i h; rw [h]; rfl
  · rfl

theorem execWriteConfigured_eq : execWriteConfigured t s = .next (receive .control t s) := by
  unfold execWriteConfigured receive
  split
  · rename_i h; rw [h]; rfl
  · rfl

theorem execWriteL_eq : execWriteL t s = .next (receive .control t s) := by
  unfold execWriteL receive
  split
  · rename_i h; rw [h]; rfl
  · rfl

theorem execWriteGrizzlyLimit_eq : execWriteGrizzlyLimit t s = .next (receive .control t s) := by
  unfold execWriteGrizzlyLimit receive
  split
  · rename_i h; rw [h]; rfl
  · rfl

theorem execWriteLineSilenceTime_eq : execWriteLineSilenceTime t s = .next (receive .control t s) := by
  unfold execWriteLineSilenceTime receive
  split
  · rename_i h; rw [h]; rfl
  · rfl

theorem execIsolateRequest_eq : execIsolateRequest t s = .next (receive .control t s) := by
  unfold execIsolateRequest receive
  split
  · rename_i h; rw [h]; rfl
  · rfl

theorem execIsolateConfirm_eq : execIsolateConfirm t s = .next (receive .control t s) := by
  unfold execIsolateConfirm receive
  split
  · rename_i h; rw [h]; rfl
  · rfl

theorem execRestore_eq : execRestore t s = .next (receive .control t s) := by
  unfold execRestore receive
  split
  · rename_i h; rw [h]; rfl
  · rfl

theorem execAcknowledge_eq : execAcknowledge t s = .next (receive .control t s) := by
  unfold execAcknowledge receive
  split
  · rename_i h; rw [h]; rfl
  · rfl

theorem execPassReset_eq : execPassReset t s = .next (receive .control t s) := by
  unfold execPassReset receive
  split
  · rename_i h; rw [h]; rfl
  · rfl

theorem execSurveyLoad_eq : execSurveyLoad t s = .next (receive .control t s) := by
  unfold execSurveyLoad receive
  split
  · rename_i h; rw [h]; rfl
  · rfl

theorem execClearFlags_eq : execClearFlags t s = .next (receive .control t s) := by
  unfold execClearFlags receive
  split
  · rename_i h; rw [h]; rfl
  · rfl

theorem execDeviceReset_eq : execDeviceReset t s = .next (receive .control t s) := by
  unfold execDeviceReset receive
  split
  · rename_i h; rw [h]; rfl
  · rfl

theorem execTimeSet_eq : execTimeSet t s = .next (receive .control t s) := by
  unfold execTimeSet receive
  split
  · rename_i h; rw [h]; rfl
  · rename_i h; rw [h]; rfl
  · rfl

/-- Every command that is a telegram's arrival answers next with what receiving the telegram makes of the state. -/
theorem exec_arrival {c : Instr} (hc : arrival c = some (port, t)) : exec c s = .next (receive port t s) := by
  cases c <;> simp only [arrival, Option.some.injEq, Prod.mk.injEq, reduceCtorEq] at hc
  case lineCheckFail => obtain ⟨rfl, rfl⟩ := hc; exact execLineCheckFail_eq
  case invalidAddress => obtain ⟨rfl, rfl⟩ := hc; exact execInvalidAddress_eq
  case relay => obtain ⟨rfl, rfl⟩ := hc; exact execRelay_eq
  case broadcast => obtain ⟨rfl, rfl⟩ := hc; exact execBroadcast_eq
  case ownStationOtherKind => obtain ⟨rfl, rfl⟩ := hc; exact execOwnStationOtherKind_eq
  case discardWhileResetPending => obtain ⟨rfl, rfl⟩ := hc; exact execDiscardWhileResetPending_eq
  case refusedPort => obtain ⟨rfl, rfl⟩ := hc; exact execRefusedPort_eq
  case gateSet => obtain ⟨rfl, rfl⟩ := hc; exact execGateSet_eq
  case signalSet => obtain ⟨rfl, rfl⟩ := hc; exact execSignalSet_eq
  case breakerSet => obtain ⟨rfl, rfl⟩ := hc; exact execBreakerSet_eq
  case level => obtain ⟨rfl, rfl⟩ := hc; exact congrArg Host.Outcome.next (onReport_eq .level)
  case tip => obtain ⟨rfl, rfl⟩ := hc; exact congrArg Host.Outcome.next (onReport_eq .tip)
  case draw => obtain ⟨rfl, rfl⟩ := hc; exact congrArg Host.Outcome.next (onReport_eq .draw)
  case grizzlyClear => obtain ⟨rfl, rfl⟩ := hc; exact congrArg Host.Outcome.next (onReport_eq .grizzlyClear)
  case chuteMoisture => obtain ⟨rfl, rfl⟩ := hc; exact congrArg Host.Outcome.next (onReport_eq .chuteMoisture)
  case gatePosition => obtain ⟨rfl, rfl⟩ := hc; exact congrArg Host.Outcome.next (onReport_eq .gatePosition)
  case wagon => obtain ⟨rfl, rfl⟩ := hc; exact congrArg Host.Outcome.next (onReport_eq .wagon)
  case signalState => obtain ⟨rfl, rfl⟩ := hc; exact congrArg Host.Outcome.next (onReport_eq .signalState)
  case breakerState => obtain ⟨rfl, rfl⟩ := hc; exact congrArg Host.Outcome.next (onReport_eq .breakerState)
  case noticePost => obtain ⟨rfl, rfl⟩ := hc; exact congrArg Host.Outcome.next (onReport_eq .noticePost)
  case noticeTaken => obtain ⟨rfl, rfl⟩ := hc; exact congrArg Host.Outcome.next (onReport_eq .noticeTaken)
  case unknownRequest => obtain ⟨rfl, rfl⟩ := hc; exact execUnknownRequest_eq
  case readItem => obtain ⟨rfl, rfl⟩ := hc; exact execReadItem_eq
  case tableRead => obtain ⟨rfl, rfl⟩ := hc; exact execTableRead_eq
  case writeEntry => obtain ⟨rfl, rfl⟩ := hc; exact execWriteEntry_eq
  case writeValid => obtain ⟨rfl, rfl⟩ := hc; exact execWriteValid_eq
  case writePointField => obtain ⟨rfl, rfl⟩ := hc; exact execWritePointField_eq
  case writeConfigured => obtain ⟨rfl, rfl⟩ := hc; exact execWriteConfigured_eq
  case writeL => obtain ⟨rfl, rfl⟩ := hc; exact execWriteL_eq
  case writeGrizzlyLimit => obtain ⟨rfl, rfl⟩ := hc; exact execWriteGrizzlyLimit_eq
  case writeLineSilenceTime => obtain ⟨rfl, rfl⟩ := hc; exact execWriteLineSilenceTime_eq
  case isolateRequest => obtain ⟨rfl, rfl⟩ := hc; exact execIsolateRequest_eq
  case isolateConfirm => obtain ⟨rfl, rfl⟩ := hc; exact execIsolateConfirm_eq
  case restore => obtain ⟨rfl, rfl⟩ := hc; exact execRestore_eq
  case acknowledge => obtain ⟨rfl, rfl⟩ := hc; exact execAcknowledge_eq
  case passReset => obtain ⟨rfl, rfl⟩ := hc; exact execPassReset_eq
  case surveyLoad => obtain ⟨rfl, rfl⟩ := hc; exact execSurveyLoad_eq
  case clearFlags => obtain ⟨rfl, rfl⟩ := hc; exact execClearFlags_eq
  case deviceReset => obtain ⟨rfl, rfl⟩ := hc; exact execDeviceReset_eq
  case timeSet => obtain ⟨rfl, rfl⟩ := hc; exact execTimeSet_eq

end Sys2Proof.Machine
end

