-- ==== Sys2Proof/Laws/Moves.lean ====
section
/-! SUPPORT. Everything a step can do to the state, said once: `Move` lists the elementary moves with what is known when
each is made, and every command, and every step, is a run of them (`exec_moves`, `step_moves`). An invariant of the state
is proved by cases on `Move` alone. -/

namespace Sys2Proof.Machine

/-! ### Elementary edits -/

/-- The changes of a pass's column (R36 to R47). -/
inductive ColumnEdit (pr : PassParams) : Column → Column → Prop
  | tip (c : Column) (now : Word) (t : TipId) (n : Nat) (w : Wetness) (share : Nat) : 1 ≤ n → n ≤ 6000 → share ≤ 100 →
      ColumnEdit pr c (c.tip pr.rounding now t n w share).1
  | draw (c : Column) (now : Word) (d : Nat) : 1 ≤ d → d ≤ 6000 → ColumnEdit pr c (c.draw pr.residue now d).1
  | clearGrizzly (c : Column) (now : Word) (t : TipId) : (c.accums.get t).tonnage ≠ 0 →
      ColumnEdit pr c (c.clearGrizzly now t).1
  | moisten (c : Column) (w : Wetness) : ColumnEdit pr c (c.moisten w)
  | survey (c : Column) (now : Word) (n : Nat) (w : Wetness) : 1 ≤ n → n ≤ 60000 → ColumnEdit pr c (c.survey now n w)

/-- The changes of one pass with parameters `pr` that touch nothing outside it. -/
inductive PassEdit (pr : PassParams) (x : Pass) : Pass → Prop
  | column (c : Column) : x.mode ≠ .unconfigured → ColumnEdit pr x.column c → PassEdit pr x { x with column := c }
  | tips (r : Trio TipRecord) : PassEdit pr x { x with tips := r }
  | chutes (r : Duo ChuteRecord) : PassEdit pr x { x with chutes := r }
  | slot (n : Option SlotNotice) : PassEdit pr x { x with slot := n }
  | sample (sm : Option Sample) (life : Option Nat) : PassEdit pr x { x with est := { x.est with sample := sm, life := life } }
  /-- An evaluation is stored (R72). -/
  | stored (o u : Bool) : x.mode ≠ .unconfigured → enabledCauses pr (findings pr x o u).causes = [] →
      PassEdit pr x { x with est := (x.est.record (findings pr x o u).causes).store pr (findings pr x o u) }
  /-- An evaluation is frozen (R72). -/
  | frozen (c : CauseSet) : PassEdit pr x { x with est := x.est.record c }
  | flags (f : StickyFlags) : PassEdit pr x { x with est := { x.est with sticky := f } }
  /-- A further cause (R152). -/
  | join (c : Cause) : x.mode = .tripped ∨ x.mode = .alert ∧ c.isAlert = true →
      PassEdit pr x { x with alarm := x.alarm.join c }
  /-- Entry to ALERT (R153). -/
  | alert (c : Cause) (now : Word) (tel : Option Interrupted) : x.mode = .running → c.isAlert = true →
      PassEdit pr x { x with mode := .alert, alarm := raisedAlarm .alert c [] now x.est tel }
  /-- Acknowledgement (R157). -/
  | acknowledged : x.mode = .alert → PassEdit pr x { x with mode := .running, alarm := x.alarm.quieted }
  /-- Pass reset, steps 1 to 4 (R159). -/
  | reset : x.mode ≠ .unconfigured →
      PassEdit pr x { resetRecords x with mode := if x.mode = .isolated then .isolated else .running }

/-- The changes of one entry of the Point Table (R21 to R24). -/
inductive PointEdit (s : State) (i : Fin 128) : PointEntry → Prop
  /-- An invalid entry's field is written. -/
  | hold (n : Nat) (sel : PointSel) : (s.tables.points.get i).valid = false →
      PointEdit s i ((s.tables.points.get i).write n sel)
  /-- An entry is made valid (R21). -/
  | validate : (s.tables.points.get i).valid = false → isComplete (s.tables.points.get i) = true →
      pointBusy s (s.tables.points.get i) = false → isDuplicate s.tables i (s.tables.points.get i) = false →
      PointEdit s i (madeValid (s.tables.points.get i))
  /-- An entry is invalidated (R22). -/
  | blank : ((s.tables.points.get i).valid = true → pointBusy s (s.tables.points.get i) = false) → PointEdit s i blankPoint
  /-- A valid entry's field is written (R22). -/
  | change (n : Nat) (sel : PointSel) : (s.tables.points.get i).valid = true → sel ≠ .valid →
      within n sel.range = true →
      objectFits ((s.tables.points.get i).write n sel) = true → pointBusy s (s.tables.points.get i) = false →
      pointBusy s ((s.tables.points.get i).write n sel) = false →
      (sel.isRouting = true → isDuplicate s.tables i ((s.tables.points.get i).write n sel) = false) →
      PointEdit s i ((s.tables.points.get i).write n sel)

/-! ### Composite moves that are made whole -/

/-- R155 steps 1 to 3: record, safe state, purge. -/
def State.tripped (p : PassId) (c : Cause) (tel : Option Interrupted) (s : State) : State :=
  let x := s.pass p
  let recorded := s.setPass p
    { x with mode := .tripped, alarm := raisedAlarm .trip c (secondaryAtTrip x) s.time x.est tel }
  let safed := recorded.onTraffic fun v tr => (safeStateOrder p).foldl (fun t a => t.originate v a) tr
  safed.onTraffic fun v tr => tr.purge v.tables p

/-- The tables with a pass's isolation mark set or cleared (R150). -/
def State.setMark (p : PassId) (b : Bool) (s : State) : State :=
  { s with tables := { s.tables with marks := s.tables.marks.set p b } }

/-- R160: state and record of an isolated pass, its mark set. -/
def State.isolated (p : PassId) (s : State) : State :=
  (s.setPass p { s.pass p with mode := .isolated, alarm := (s.pass p).alarm.quieted }).setMark p true

/-- R160: a restored pass, its mark cleared. -/
def State.restored (p : PassId) (s : State) : State := (s.setPass p { s.pass p with mode := .running }).setMark p false

/-- R161: a configured pass. -/
def State.configured (p : PassId) (s : State) : State :=
  let stored := s.store (.param p .configured) 1
  (stored.setPass p { stored.pass p with mode := .isolated }).setMark p true

/-- R161: an unconfigured pass, cleared in every block. -/
def State.unconfigured (p : PassId) (s : State) : State :=
  let moved := ((s.store (.param p .configured) 0).setPass p (clearedPass .unconfigured)).setMark p false
  { moved with traffic := { moved.traffic with history := moved.traffic.history.set p (Duo.all clearedHistory) } }

/-- R77: the figures of a pass at 0 and EMPTY. -/
def Pass.flattened (x : Pass) : Pass := { x with est := { x.est with h := 0, hc := 0, hs := 0, band := .empty } }

/-- R77: L written. -/
def State.lengthened (p : PassId) (n : Int) (s : State) : State :=
  let stored := s.store (.param p .len) n
  if (s.pass p).mode = .isolated then stored.setPass p (s.pass p).flattened else stored

/-- One elementary move of the state. -/
inductive Move (s : State) : State → Prop
  | act (tr : Traffic) : Act s.view s.traffic tr → Move s { s with traffic := tr }
  | edit (p : PassId) (x : Pass) : PassEdit (s.params p) (s.pass p) x → Move s (s.setPass p x)
  /-- Timers, time base, isolation record, bar, pending reset, and the model's own fields. -/
  | registers (silence : Option Nat) (time : Word) (pi : Option PendingIsolation) (bar rp : Bool) (draws : Nat)
      (pending : List Instr) :
      Move s
        { s with silence := silence, time := time, pendingIsolation := pi, bar := bar, resetPending := rp, draws := draws,
                 pending := pending }
  | restarted (cause : ResetCause) : Move s (s.restarted cause)
  | tripped (p : PassId) (c : Cause) (tel : Option Interrupted) : (s.pass p).mode.isLive = true → c.isAlert = false →
      Move s (s.tripped p c tel)
  /-- The purge of an isolation has been made (R160), and the pass is at rest (R158). -/
  | isolated (p : PassId) : (s.pass p).mode.inService = true → atRest s.view s.traffic p = true →
      (∀ e ∈ s.traffic.pool, e.actuator.pass ≠ p) → Move s (s.isolated p)
  | restored (p : PassId) : (s.pass p).mode = .isolated → Move s (s.restored p)
  | configured (p : PassId) : (s.pass p).mode = .unconfigured → Move s (s.configured p)
  | unconfigured (p : PassId) : (s.pass p).mode = .isolated → passBusy s.traffic p = false → Move s (s.unconfigured p)
  | lengthened (p : PassId) (n : Int) : (s.pass p).mode.inService = false → inRange n (.param p .len) = true →
      Move s (s.lengthened p n)
  /-- A field of no effect on the order of the part is written (R172). -/
  | store (f : TableField) (n : Int) : writeAllowed s f = true → inRange n f = true →
      (f.isParticular = false ∨ (∃ p t, f = .grizzly p t) ∨ f = .device .silenceTime) → Move s (s.store f n)
  | point (i : Fin 128) (e : PointEntry) : noneInService s = true → PointEdit s i e → Move s (s.setPoint i e)
  | elapse : Move s s.elapse

/-- A run of moves. -/
def Moves : State → State → Prop := Relation.ReflTransGen Move

section

variable {s t u : State} {p : PassId}

theorem Moves.one (h : Move s t) : Moves s t := .single h

theorem Moves.append (h : Moves s t) (h' : Moves t u) : Moves s u := h.trans h'

theorem Moves.then (h : Moves s t) (h' : Move t u) : Moves s u := h.tail h'

/-- A property that every move keeps holds after a run. -/
theorem Moves.keeps {I : State → Prop} (hI : ∀ s t, Move s t → I s → I t) (h : Moves s t) (h0 : I s) : I t := by
  induction h with
  | refl => exact h0
  | tail _ h2 ih => exact hI _ _ h2 ih

theorem Moves.foldl {α : Type} {f : State → α → State} (l : List α) (hf : ∀ x ∈ l, ∀ s, Moves s (f s x)) :
    ∀ s, Moves s (l.foldl f s) := by
  induction l with
  | nil => exact fun s => .refl
  | cons x xs ih =>
    intro s
    exact (hf x (by simp) s).trans (ih (fun y hy => hf y (by simp [hy])) _)

/-- A further run made only if a test is met. -/
theorem Moves.iteThen {b : Prop} [Decidable b] (h : Moves s t) (h' : b → Moves t u) : Moves s (if b then u else t) := by
  split
  · rename_i hb; exact h.trans (h' hb)
  · exact h

/-- A further run made only if a test is not met. -/
theorem Moves.iteElse {b : Prop} [Decidable b] (h : Moves s t) (h' : ¬b → Moves t u) :
    Moves s (if b then t else u) := by
  split
  · exact h
  · rename_i hb; exact h.trans (h' hb)

/-- A run of acts of the traffic is a run of moves. -/
theorem Acts.moves {tr : Traffic} (h : Acts s.view s.traffic tr) : Moves s { s with traffic := tr } := by
  induction h with
  | refl => exact .refl
  | tail _ h2 ih => exact ih.tail (.act _ h2)

theorem onTraffic_moves {f : View → Traffic → Traffic} (h : Acts s.view s.traffic (f s.view s.traffic)) :
    Moves s (s.onTraffic f) := h.moves

/-! ### The blocks -/

theorem raise_moves (src : NoticeSource) (cls : NoticeClass) (n : Nat) (h : sourceFits src cls) :
    Moves s (s.raise src cls n) := onTraffic_moves (.one (.raiseOnce _ _ _ _ h))

theorem reportChange_moves : Moves s (s.reportChange p) := onTraffic_moves (change_acts p false _)

theorem reportStandingChange_moves : Moves s (s.reportStandingChange p) := onTraffic_moves (change_acts p true _)

theorem originate_moves (a : Actuator) : Moves s (s.originate a) := onTraffic_moves (originate_acts a _)

theorem force_moves (a : Actuator) (r : Reason) : Moves s (s.force a r) := by
  unfold State.force
  split
  · exact (originate_moves a).append (raise_moves _ _ _ (sourceFits_pass rfl))
  · exact .refl

theorem alertCause_moves (c : Cause) (tel : Option Interrupted) (hc : c.isAlert = true) :
    Moves s (s.alertCause p c tel) := by
  unfold State.alertCause
  simp only
  split
  · rename_i hm
    exact ((Moves.one (.edit p _ (.alert c s.time tel hm hc))).append
      (raise_moves _ _ _ (sourceFits_pass rfl))).append reportStandingChange_moves
  · rename_i hm
    exact .one (.edit p _ (.join c (.inr ⟨hm, hc⟩)))
  · rename_i hm
    exact .one (.edit p _ (.join c (.inl hm)))
  · exact .refl
  · exact .refl

theorem enterTripped_eq (c : Cause) (tel : Option Interrupted) :
    s.enterTripped p c tel = ((s.tripped p c tel).raise (.pass p) .trip c.code).reportChange p := rfl

theorem tripCause_moves (c : Cause) (tel : Option Interrupted) (hc : c.isAlert = false) :
    Moves s (s.tripCause p c tel) := by
  have entry : (s.pass p).mode.isLive = true → Moves s (s.enterTripped p c tel) := fun hl => by
    rw [enterTripped_eq]
    exact ((Moves.one (.tripped p c tel hl hc)).append (raise_moves _ _ _ (sourceFits_pass rfl))).append
      reportChange_moves
  unfold State.tripCause
  simp only
  split
  · rename_i hm; exact entry (by simp [hm, PassState.isLive])
  · rename_i hm; exact entry (by simp [hm, PassState.isLive])
  · rename_i hm; exact .one (.edit p _ (.join c (.inl hm)))
  · exact .refl
  · exact .refl

theorem failAction_moves (e : ActionEntry) (tel : Option Interrupted) : Moves s (s.failAction e tel) := by
  have h1 : Moves s (s.onTraffic fun v tr => tr.dropFailed v.tables e.actuator) :=
    onTraffic_moves (.one (.dropFailed _ _))
  have h2 := h1.append (raise_moves (.pass e.actuator.pass) .actionFail
    (10 * operationCode e.actuator e.direction + e.actuator.object.val) (sourceFits_pass rfl))
  unfold State.failAction
  simp only
  split
  · exact (h2.append (originate_moves _)).append (alertCause_moves _ _ rfl)
  · exact h2.append (tripCause_moves _ _ rfl)

theorem candidate_moves (a : Actuator) (t : Telegram) : Moves s (s.candidate a t) := by
  unfold State.candidate
  split
  · split
    · exact failAction_moves _ _
    · exact onTraffic_moves (confirm_acts _ _)
  · exact onTraffic_moves (confirm_acts _ _)

/-- R72, R73: what an evaluation hands over are alert causes. -/
theorem enabledCauses_isAlert (pr : PassParams) (c : CauseSet) : ∀ x ∈ enabledCauses pr c, x.isAlert = true := by
  intro x hx
  simp only [enabledCauses, List.mem_append] at hx
  rcases hx with (((hx | hx) | hx) | hx) | hx
  · split at hx <;> simp at hx; subst hx; rfl
  · split at hx <;> simp at hx; subst hx; rfl
  · split at hx <;> simp at hx; subst hx; rfl
  · split at hx
    · split at hx <;> simp at hx; subst hx; rfl
    · split at hx <;> simp at hx; subst hx; rfl
    · simp at hx
  · split at hx <;> simp at hx; subst hx; rfl

theorem handBand_moves (before : Band) : Moves s (s.handBand p before) := by
  unfold State.handBand
  simp only
  split
  · exact .refl
  · exact (raise_moves _ _ _ (sourceFits_pass rfl)).append reportStandingChange_moves

theorem evaluate_moves (o u : Bool) (tel : Option Interrupted) : Moves s (s.evaluate p o u tel) := by
  unfold State.evaluate
  simp only
  split
  · exact .refl
  · rename_i hm
    split
    · rename_i he
      exact (Moves.one (.edit p _ (.stored o u hm he))).append (handBand_moves _)
    · rename_i c cs he
      refine (Moves.one (.edit p _ (.frozen (findings (s.params p) (s.pass p) o u).causes))).append ?_
      refine Moves.foldl _ (fun x hx st => alertCause_moves x tel ?_) _
      exact enabledCauses_isAlert (s.params p) _ x (he ▸ hx)

theorem setChute_moves (c : ChuteId) (r : ChuteRecord) : Moves s (s.setChute p c r) :=
  .one (.edit p _ (.chutes _))

theorem setTip_moves (t : TipId) (r : TipRecord) : Moves s (s.setTip p t r) :=
  .one (.edit p _ (.tips _))

theorem setStanding_moves (t : TipId) : Moves s (s.setStanding p t) := by
  unfold State.setStanding
  simp only
  split
  · exact .refl
  · exact Moves.append (Moves.iteThen (setTip_moves _ _) fun _ => force_moves _ _) reportChange_moves

theorem completeColumn_moves (before : Column) (o u : Bool) (tel : Option Interrupted) :
    Moves s (s.completeColumn p before o u tel) := by
  unfold State.completeColumn
  simp only
  refine Moves.append (Moves.iteElse (evaluate_moves o u tel) fun _ => reportStandingChange_moves)
    (Moves.foldl _ (fun t _ st => ?_) _)
  unfold State.handAccumulator
  split
  · exact .refl
  · exact setStanding_moves t

theorem changeColumn_moves {c : Column} (hm : (s.pass p).mode ≠ .unconfigured)
    (hc : ColumnEdit (s.params p) (s.pass p).column c) (o u : Bool) (tel : Option Interrupted) :
    Moves s (s.changeColumn p c o u tel) :=
  (Moves.one (.edit p _ (.column c hm hc))).append (completeColumn_moves _ o u tel)

/-! ### Reports -/

theorem reportPayload_bounds {t : Telegram} {n : Nat} (h : reportPayload t = some n) : 1 ≤ n ∧ n ≤ 6000 := by
  unfold reportPayload at h
  split at h
  · cases h
  · injection h with h
    omega

theorem reportShare_le (t : Telegram) : reportShare t ≤ 100 := by
  unfold reportShare
  omega

theorem emptySlot_moves (n : Nat) : Moves s (s.emptySlot p n) := by
  unfold State.emptySlot
  simp only
  split
  · exact .refl
  · exact ((Moves.one (.edit p _ (.slot none))).append (raise_moves _ _ _ (sourceFits_pass rfl))).append
      reportChange_moves

theorem reportEffect_moves {h : Hit} (t : Telegram) (hm : (s.pass h.pass).mode ≠ .unconfigured) :
    Moves s (reportEffect h.role h t s) := by
  obtain ⟨e, r, p, o⟩ := h
  simp only at hm
  cases r <;> simp only [reportEffect]
  case gateSet => exact .refl
  case signalSet => exact .refl
  case breakerSet => exact .refl
  case level =>
    exact (Moves.one (.edit p _ (.sample _ _))).append (evaluate_moves _ _ _)
  case tip =>
    unfold tipReport
    split
    · exact .refl
    · rename_i n hn
      exact changeColumn_moves hm
        (.tip _ _ _ _ _ _ (reportPayload_bounds hn).1 (reportPayload_bounds hn).2 (reportShare_le t)) _ _ _
  case draw =>
    unfold drawReport
    split
    · exact .refl
    · rename_i n hn
      exact changeColumn_moves hm (.draw _ _ _ (reportPayload_bounds hn).1 (reportPayload_bounds hn).2) _ _ _
  case grizzlyClear =>
    unfold grizzlyClearReport
    split
    · exact .refl
    · rename_i hz
      exact changeColumn_moves hm (.clearGrizzly _ _ _ hz) _ _ _
  case chuteMoisture =>
    unfold chuteMoistureReport
    have h1 : Moves s (moistureAtColumn p (reportWetness t) t s) := by
      unfold moistureAtColumn
      simp only
      split
      · exact .refl
      · exact changeColumn_moves hm (.moisten _ _) _ _ _
    refine h1.append ?_
    unfold moistureAtChute
    simp only
    exact Moves.iteThen (setChute_moves _ _) fun _ => tripCause_moves _ _ rfl
  case gatePosition =>
    unfold gatePositionReport
    simp only
    refine Moves.append ?_ (candidate_moves _ t)
    refine Moves.iteElse ?_ fun _ => reportChange_moves
    refine Moves.iteThen ?_ fun _ => tripCause_moves _ _ rfl
    exact Moves.iteThen (setChute_moves _ _) fun _ => tripCause_moves _ _ rfl
  case wagon =>
    unfold wagonReport
    split
    · exact .refl
    · simp only
      refine Moves.iteElse ?_ fun _ => reportChange_moves
      exact Moves.iteThen (setChute_moves _ _) fun _ => force_moves _ _
  case signalState =>
    unfold signalStateReport
    split
    · exact .refl
    · simp only
      refine Moves.append ?_ (candidate_moves _ t)
      refine Moves.iteElse ?_ fun _ => reportChange_moves
      refine Moves.iteThen ?_ fun _ => force_moves _ _
      exact Moves.iteThen (setTip_moves _ _) fun _ => tripCause_moves _ _ rfl
  case breakerState =>
    unfold breakerStateReport
    split
    · exact .refl
    · simp only
      refine Moves.append ?_ (candidate_moves _ t)
      refine Moves.iteElse ?_ fun _ => reportChange_moves
      exact Moves.iteThen (setTip_moves _ _) fun _ => tripCause_moves _ _ rfl
  case noticePost =>
    unfold noticePostReport
    split
    · exact .refl
    · simp only
      split
      · exact raise_moves _ _ _ (sourceFits_pass rfl)
      · exact ((Moves.one (.edit p _ (.slot _))).append (raise_moves _ _ _ (sourceFits_pass rfl))).append
          reportChange_moves
  case noticeTaken => exact emptySlot_moves _

end

end Sys2Proof.Machine
end

