-- ==== Sys2Proof/Laws/Steps.lean ====
section
/-! SUPPORT. Every request, every receipt, every command and every step is a run of the moves of Moves.lean. -/

namespace Sys2Proof.Machine

variable {s t u : State} {p : PassId}

/-! ### Management requests -/

theorem checkedWrite_moves {f : TableField} {x : Int} {carryOut : State → Reply}
    (h : writeAllowed s f = true → inRange x f = true → Moves s (carryOut s).state) :
    Moves s (checkedWrite f x s carryOut).state := by
  unfold checkedWrite
  split
  · exact .refl
  · rename_i h1
    split
    · exact .refl
    · rename_i h2
      exact h (by simpa using h1) (by simpa using h2)

theorem writeField_moves {f : Option TableField} (x : Int) (hf : ∀ g, f = some g → g.isParticular = false) :
    Moves s (writeField f x s).state := by
  unfold writeField
  split
  · exact .refl
  · rename_i g
    exact checkedWrite_moves fun h1 h2 => .one (.store g x h1 h2 (.inl (hf g rfl)))

theorem writeValidField_moves (i : Fin 128) (x : Int) : Moves s (writeValidField i x s).state := by
  refine checkedWrite_moves fun h1 _ => ?_
  have hn : noneInService s = true := h1
  simp only
  split
  · split
    · exact .refl
    · rename_i hv
      split
      · exact .refl
      · rename_i hc
        split
        · exact .refl
        · rename_i hb
          split
          · exact .refl
          · rename_i hd
            exact .one (.point i _ hn (.validate (by simpa using hv) (by simpa using hc) (by simpa using hb)
              (by simpa using hd)))
  · split
    · split
      · exact .refl
      · rename_i hb
        exact .one (.point i _ hn (.blank fun _ => by simpa using hb))
    · rename_i hv
      exact .one (.point i _ hn (.blank fun h => absurd h hv))

theorem writePointSel_moves (i : Fin 128) (sel : PointSel) (x : Int) (hs : sel ≠ .valid) :
    Moves s (writePointSel i sel x s).state := by
  refine checkedWrite_moves fun h1 h2 => ?_
  have hn : noneInService s = true := h1
  have hw : within ((x.toNat : Nat) : Int) sel.range = true := by
    have h2' : within x sel.range = true := h2
    have hx : (0 : Int) ≤ x := by
      have : sel.range.1 ≤ x := by
        simp only [within, decide_eq_true_eq] at h2'
        exact h2'.1
      have h0 : (0 : Int) ≤ sel.range.1 := by cases sel <;> decide
      omega
    rw [Int.toNat_of_nonneg hx]
    exact h2'
  simp only
  split
  · rename_i hv
    exact .one (.point i _ hn (.hold _ _ (by simpa using hv)))
  · rename_i hv
    split
    · exact .refl
    · split
      · exact .refl
      · rename_i ho
        split
        · exact .refl
        · rename_i hb
          split
          · exact .refl
          · rename_i hd
            simp only [Bool.or_eq_true, not_or, Bool.not_eq_true] at hb
            refine .one (.point i _ hn (.change _ _ (by simpa using hv) hs hw (by simpa using ho) hb.1 hb.2 ?_))
            intro hr
            simpa [hr] using hd

theorem configurePass_eq : s.configurePass p = (s.configured p).reportChange p := rfl

theorem unconfigurePass_eq : s.unconfigurePass p = (s.unconfigured p).reportChange p := rfl

theorem inService_isolated {m : PassState} (h : m.inService = false) (hu : m ≠ .unconfigured) : m = .isolated := by
  cases m <;> simp_all [PassState.inService]

theorem writeConfiguredField_moves (x : Int) : Moves s (writeConfiguredField p x s).state := by
  refine checkedWrite_moves fun h1 _ => ?_
  split
  · rename_i hm
    split
    · exact (Moves.one (.configured p hm)).append reportChange_moves
    · exact .refl
  · rename_i hm
    split
    · exact .refl
    · split
      · exact .refl
      · rename_i hb
        have hi : (s.pass p).mode = .isolated :=
          inService_isolated (by simpa [writeAllowed] using h1) hm
        exact (Moves.one (.unconfigured p hi (by simpa using hb))).append reportChange_moves

theorem writeLength_moves (x : Int) : Moves s (writeLength p x s).state := by
  refine checkedWrite_moves fun h1 h2 => ?_
  have hm : (s.pass p).mode.inService = false := by simpa [writeAllowed] using h1
  have h3 := Moves.one (.lengthened p x hm h2)
  simp only [State.lengthened] at h3
  dsimp only
  split
  · rename_i hi
    have hi' : (s.pass p).mode = .isolated := hi
    rw [if_pos hi'] at h3
    exact h3.append (handBand_moves _)
  · rename_i hi
    have hi' : (s.pass p).mode ≠ .isolated := hi
    rw [if_neg hi'] at h3
    exact h3

theorem writeGrizzly_moves (n : TipId) (x : Int) : Moves s (writeGrizzly p n x s).state := by
  refine checkedWrite_moves fun h1 h2 => ?_
  have h3 := Moves.one (.store (.grizzly p n) x h1 h2 (.inr (.inl ⟨p, n, rfl⟩)))
  simp only
  split
  · exact h3.append (setTip_moves _ _)
  · exact h3.append (setStanding_moves _)

/-- A change of the timers, the isolation record, the bar, the pending reset or the model's own fields alone. -/
theorem registers_moves (h : t = { s with silence := t.silence, time := t.time, pendingIsolation := t.pendingIsolation,
                                          bar := t.bar, resetPending := t.resetPending, draws := t.draws,
                                          pending := t.pending }) : Moves s t := by
  rw [h]
  exact .one (.registers _ _ _ _ _ _ _)

theorem writeSilenceTime_moves (x : Int) : Moves s (writeSilenceTime x s).state :=
  checkedWrite_moves fun h1 h2 =>
    (Moves.one (.store _ x h1 h2 (.inr (.inr rfl)))).append (registers_moves rfl)

theorem isolatePass_moves (hi : (s.pass p).mode.inService = true) (hr : atRest s.view s.traffic p = true) :
    Moves s (s.isolatePass p) := by
  have h1 : Moves s (s.onTraffic fun v tr => tr.purge v.tables p) := onTraffic_moves (purge_acts p _)
  have hr' : atRest s.view (s.traffic.purge s.tables p) p = true := by
    rw [← hr]
    unfold atRest hasEntry
    rw [purge_actions]
  have hp : ∀ e ∈ (s.traffic.purge s.tables p).pool, e.actuator.pass ≠ p := by
    rw [purge_pool]
    intro e he
    have := (List.mem_filter.mp he).2
    simpa [HeldEntry.isOf] using this
  exact (h1.then (.isolated p hi hr' hp)).append reportChange_moves

theorem confirmIsolation_moves : Moves s (confirmIsolation p s).state := by
  unfold confirmIsolation
  split
  · exact .refl
  · rename_i hi
    split
    · exact .refl
    · rename_i hr
      exact isolatePass_moves (by simpa using hi) (by simpa using hr)

theorem isolateRequest_moves (t : Telegram) : Moves s (isolateRequest t s).state := by
  unfold isolateRequest
  split
  · exact .refl
  · split
    · exact .refl
    · exact registers_moves rfl

theorem isolateConfirm_moves (t : Telegram) : Moves s (isolateConfirm t s).state := by
  unfold isolateConfirm
  split
  · exact .refl
  · split
    · exact .refl
    · simp only
      split
      · exact (registers_moves rfl).append confirmIsolation_moves
      · exact registers_moves rfl

theorem forPass_moves (t : Telegram) {f : PassId → Reply} (h : ∀ p, Moves s (f p).state) :
    Moves s (forPass t s f).state := by
  unfold forPass
  split
  · exact .refl
  · exact h _

theorem restoreRequest_moves (t : Telegram) : Moves s (restoreRequest t s).state := by
  refine forPass_moves t fun p => ?_
  split
  · exact .refl
  · rename_i hm
    split
    · exact .refl
    · exact ((Moves.one (.restored p (by simpa using hm))).append reportChange_moves).append (evaluate_moves _ _ _)

theorem acknowledgeRequest_moves (t : Telegram) : Moves s (acknowledgeRequest t s).state := by
  refine forPass_moves t fun p => ?_
  split
  · exact .refl
  · rename_i hm
    exact ((Moves.one (.edit p _ (.acknowledged (by simpa using hm)))).append reportStandingChange_moves).append
      (evaluate_moves _ _ _)

theorem resetPass_moves (hm : (s.pass p).mode ≠ .unconfigured) : Moves s (s.resetPass p) := by
  have h1 := Moves.one (.edit p _ (.reset (pr := s.params p) hm))
  unfold State.resetPass
  simp only [State.setPass_pass_self, State.setPass_setPass]
  refine Moves.append (Moves.append ?_ (emptySlot_moves 4)) (completeColumn_moves _ _ _ _)
  cases hx : (s.pass p).mode
  · exact absurd hx hm
  · have : (resetRecords (s.pass p)).mode = .isolated := hx
    rw [this]
    simp only [hx, if_true] at h1
    rw [← this] at h1
    exact h1
  · have : (resetRecords (s.pass p)).mode = .running := hx
    rw [this]
    simp only [hx, reduceCtorEq, if_false] at h1
    rw [← this] at h1
    exact h1
  · have : (resetRecords (s.pass p)).mode = .alert := hx
    rw [this]
    simp only [hx, reduceCtorEq, if_false] at h1
    exact h1.append reportChange_moves
  · have : (resetRecords (s.pass p)).mode = .tripped := hx
    rw [this]
    simp only [hx, reduceCtorEq, if_false] at h1
    exact h1.append reportChange_moves

theorem passResetRequest_moves (t : Telegram) : Moves s (passResetRequest t s).state := by
  refine forPass_moves t fun p => ?_
  split
  · exact .refl
  · rename_i hm; exact resetPass_moves (by simp [hm])
  · rename_i hm
    split
    · exact resetPass_moves (by simp [hm])
    · exact .refl
  · rename_i hm
    split
    · exact resetPass_moves (by simp [hm])
    · exact .refl
  · rename_i hm
    split
    · exact resetPass_moves (by simp [hm])
    · exact .refl

theorem surveyRequest_moves (t : Telegram) : Moves s (surveyRequest t s).state := by
  refine forPass_moves t fun p => ?_
  split
  · exact .refl
  · rename_i hm
    split
    · exact .refl
    · rename_i hw
      split
      · exact .refl
      · have hw' : 1 ≤ t.value.toInt ∧ t.value.toInt ≤ 60000 := by simpa [within] using hw
        exact changeColumn_moves hm (.survey _ _ _ _ (by omega) (by omega)) _ _ _

theorem clearFlagsRequest_moves (t : Telegram) : Moves s (clearFlagsRequest t s).state := by
  unfold clearFlagsRequest
  split
  · exact .one (.act _ (.clearOverruns _))
  · refine forPass_moves t fun p => ?_
    simp only
    split
    · exact .refl
    · exact .one (.edit p _ (.flags _))

theorem readValue_state (o : Option Int) : (readValue s o).state = s := by
  unfold readValue
  split <;> rfl

theorem requestReply_moves (t : Telegram) : Moves s (requestReply (requestOf t) t s).state := by
  have hw : ∀ f, requestOf t = .writeEntry f → ∀ g, f = some g → g.isParticular = false := by
    rintro f hf g rfl
    exact requestOf_writeEntry hf
  have hp : ∀ i sel, requestOf t = .writePointField i sel → sel ≠ .valid :=
    fun i sel h => requestOf_writePointField h
  generalize requestOf t = r at *
  cases r <;> simp only [requestReply]
  case unknown => exact .refl
  case readItem =>
    unfold readItem
    split
    · rw [readValue_state]; exact .refl
    · exact .refl
  case tableRead f =>
    unfold readTable
    rw [readValue_state]
    exact .refl
  case writeEntry f => exact writeField_moves _ (hw f rfl)
  case writeValid i => exact writeValidField_moves _ _
  case writePointField i sel => exact writePointSel_moves _ _ _ (hp i sel rfl)
  case writeConfigured q => exact writeConfiguredField_moves _
  case writeL q => exact writeLength_moves _
  case writeGrizzlyLimit q n => exact writeGrizzly_moves _ _
  case writeLineSilenceTime => exact writeSilenceTime_moves _
  case isolateRequest => exact isolateRequest_moves _
  case isolateConfirm => exact isolateConfirm_moves _
  case restore => exact restoreRequest_moves _
  case acknowledge => exact acknowledgeRequest_moves _
  case passReset => exact passResetRequest_moves _
  case surveyLoad => exact surveyRequest_moves _
  case clearFlags => exact clearFlagsRequest_moves _
  case timeSet => exact registers_moves rfl
  case deviceReset => exact registers_moves rfl

theorem respond_moves (t : Telegram) (b : Bool) (r : Reply) : Moves r.state (respond t b r) :=
  onTraffic_moves (.one (.placeControl _ _ (fun _ => rfl) (checkHolds_replyTelegram _ _ _ _)))

/-! ### Receiving -/

theorem heard_moves (port : PortId) : Moves s (heard port s) := by
  cases port
  · exact registers_moves rfl
  · exact .refl

theorem relayFrom_moves (port : PortId) {t : Telegram} (ht : checkHolds t = true) : Moves s (s.relayFrom port t) := by
  cases port
  · exact onTraffic_moves (.one (.placeField _ _ (fun _ => rfl) ht))
  · exact onTraffic_moves (.one (.placeControl _ _ (fun _ => rfl) ht))

theorem relayApplied_moves (h : Hit) {t : Telegram} (ht : checkHolds t = true) : Moves s (s.relayApplied h t) := by
  unfold State.relayApplied
  split
  · exact relayFrom_moves _ ht
  · exact relayFrom_moves _ (checkHolds_withCheck _)
  · exact .refl

theorem receive_moves (port : PortId) (t : Telegram) : Moves s (receive port t s) := by
  unfold receive deal
  split
  · exact .refl
  · exact .refl
  · exact heard_moves port
  · exact heard_moves port
  · rename_i hf
    have ht : checkHolds t = true := fate_checked (by rw [hf]; simp)
    refine (heard_moves port).append ?_
    unfold State.takeBroadcast
    exact Moves.iteThen (relayFrom_moves port ht) fun _ => registers_moves rfl
  · refine (heard_moves port).append ?_
    exact onTraffic_moves (.one (.placeField _ _ (fun _ => rfl) (checkHolds_replyTelegram _ _ _ _)))
  · rename_i hf
    have ht : checkHolds t = true := fate_checked (by rw [hf]; simp)
    exact (heard_moves port).append (relayFrom_moves port ht)
  · rename_i r hf
    obtain ⟨-, rfl, -, -⟩ := fate_request hf
    exact ((heard_moves port).append (requestReply_moves t)).append (respond_moves _ _ _)
  · rename_i a hf
    obtain ⟨-, h, hl, ha, -⟩ := fate_command hf
    refine (heard_moves port).append (onTraffic_moves (arrive_acts t _ ?_))
    exact ⟨t.dest, t.point, h, by simpa using hl, ha⟩
  · rename_i h hf
    have ht : checkHolds t = true := fate_checked (by rw [hf]; simp)
    obtain ⟨-, -, -, hm⟩ := fate_report hf
    refine (heard_moves port).append (Moves.append (reportEffect_moves t ?_) (relayApplied_moves h ht))
    simpa using hm

/-! ### Start-up, lines and timers -/

theorem startUp_moves (cause : ResetCause) : Moves s (s.startUp cause) := by
  unfold State.startUp
  simp only
  refine Moves.append (Moves.append (Moves.append (Moves.one (.restarted cause)) (Moves.foldl _ (fun p _ st => ?_) _))
    (raise_moves _ _ _ (by simp [sourceFits, NoticeClass.ofDevice]))) (Moves.foldl _ (fun p _ st => ?_) _)
  · unfold State.startSafe
    split
    · exact .refl
    · exact onTraffic_moves (Acts.foldl _ (fun a _ tr => originate_acts a tr) _)
  · unfold State.startAlert
    split
    · exact (raise_moves _ _ _ (sourceFits_pass rfl)).append reportStandingChange_moves
    · exact .refl

theorem settleReset_moves : Moves s s.settleReset := by
  unfold State.settleReset
  split
  · exact startUp_moves _
  · exact .refl

theorem controlLineFree_moves : Moves s s.controlLineFree := by
  unfold State.controlLineFree
  split
  · exact .refl
  · split
    · exact startUp_moves _
    · exact onTraffic_moves (.one (.freeControl _))

theorem fieldLineFree_moves : Moves s s.fieldLineFree := by
  unfold State.fieldLineFree
  split
  · exact .refl
  · exact onTraffic_moves (.one (.freeField _))

theorem staleSample_moves : Moves s (s.staleSample p) := by
  unfold State.staleSample
  simp only
  split
  · exact .refl
  · exact (Moves.one (.edit p _ (.sample _ _))).append (evaluate_moves _ _ _)

theorem silenceRunsOut_moves (order : List PassId) : Moves s (s.silenceRunsOut order) := by
  unfold State.silenceRunsOut
  split
  · exact .refl
  · exact (registers_moves (t := { s with silence := none }) rfl).append
      (Moves.foldl _ (fun p _ st => tripCause_moves _ _ rfl) _)

theorem deadlineRunsOut_moves (a : Actuator) : Moves s (s.deadlineRunsOut a) := by
  unfold State.deadlineRunsOut
  split
  · exact .refl
  · exact failAction_moves _ _

/-! ### Commands and steps -/

/-- Every command's next state is reached by moves. -/
theorem exec_moves {c : Instr} (h : exec c s = .next t) : Moves s t := by
  cases hc : arrival c with
  | some pt =>
    obtain ⟨port, tel⟩ := pt
    rw [exec_arrival hc] at h
    injection h with h
    subst h
    exact receive_moves port tel
  | none =>
    cases c <;> simp only [arrival, reduceCtorEq] at hc <;> simp only [exec] at h
    case powerOn => injection h with h; subst h; exact startUp_moves _
    case lineFree port =>
      cases port <;> (simp only [execLineFree] at h; injection h with h; subst h)
      · exact controlLineFree_moves
      · exact fieldLineFree_moves
    case lineSilenceExpiry order =>
      injection h with h; subst h
      exact (silenceRunsOut_moves order).append settleReset_moves
    case sampleStale p =>
      injection h with h; subst h
      exact staleSample_moves.append settleReset_moves
    case holdExpiry a =>
      injection h with h; subst h
      exact (onTraffic_moves (expireHeld_acts a _)).append settleReset_moves
    case deadlineExpiry a =>
      injection h with h; subst h
      exact (deadlineRunsOut_moves a).append settleReset_moves

/-- Every step's next state is reached by moves. -/
theorem step_moves (h : step s = .next t) : Moves s t := by
  unfold step at h
  split at h
  · exact (registers_moves rfl).append (exec_moves h)
  · unfold State.idle at h
    split at h
    · injection h with h; subst h; exact .one .elapse
    · exact (registers_moves (t := { s with draws := s.draws + 1 }) rfl).append (exec_moves h)

/-- A property that every move keeps holds after every step from a state where it holds. -/
theorem step_keeps {I : State → Prop} (hI : ∀ s t, Move s t → I s → I t) (h0 : I s) (h : step s = .next t) : I t :=
  (step_moves h).keeps hI h0

end Sys2Proof.Machine
end

