-- ==== Sys2Proof/Laws/Elsewhere.lean ====
section
/-! SUPPORT. What the operations on one pass leave of every other pass: for each operation, and for each block's act on a
pass, one lemma that says so. -/

namespace Sys2Proof.Machine

/-- What an operation leaves of pass `q`: its gates' histories and its held commands as they were, of its Action Queue
entries no new one. -/
def Spares (q : PassId) (tr tr' : Traffic) : Prop :=
  tr'.history.get q = tr.history.get q ∧ tr'.pool.filter (HeldEntry.isOf q) = tr.pool.filter (HeldEntry.isOf q)
    ∧ (linesOf tr' q).Sublist (linesOf tr q)

section

variable {q p : PassId} {tr tr' tr'' : Traffic} {tb : Tables} {v : View} {a : Actuator}

theorem Spares.refl' : Spares q tr tr := ⟨rfl, rfl, .refl _⟩

theorem Spares.append (h : Spares q tr tr') (h' : Spares q tr' tr'') : Spares q tr tr'' :=
  ⟨h'.1.trans h.1, h'.2.1.trans h.2.1, h'.2.2.trans h.2.2⟩

/-- An operation that moves neither histories, pool nor entries spares every pass. -/
theorem Spares.of_eq (h1 : tr'.history = tr.history) (h2 : tr'.pool = tr.pool) (h3 : tr'.actions = tr.actions) :
    Spares q tr tr' := by
  refine ⟨by rw [h1], by rw [h2], ?_⟩
  unfold linesOf
  rw [h3]

theorem Spares.foldl {α : Type} {f : Traffic → α → Traffic} (l : List α) (hf : ∀ x ∈ l, ∀ t, Spares q t (f t x)) :
    ∀ t, Spares q t (l.foldl f t) := by
  induction l with
  | nil => exact fun t => .refl'
  | cons x xs ih => intro t; exact (hf x (by simp) t).append (ih (fun y hy => hf y (by simp [hy])) _)

theorem answer_spares (r : Requester) (ans : Answer) (reason : Reason) (n : Nat) (tr : Traffic) :
    Spares q tr (tr.answer tb r ans reason n) := .of_eq rfl rfl rfl

theorem answerEntry_spares (e : ActionEntry) (ans : Answer) (reason : Reason) (n : Nat) (tr : Traffic) :
    Spares q tr (tr.answerEntry tb e ans reason n) := .of_eq (by simp) (by simp) (by simp)

@[simp] theorem ActionEntry.withStanding_withStanding (x y : Bool) (e : ActionEntry) :
    (e.withStanding x).withStanding y = e.withStanding y := by
  unfold ActionEntry.withStanding
  cases h : e.state <;> simp [h]

/-- A change of standing is not seen in the lines read with every standing SENT. -/
theorem linesOf_setStanding (a : Actuator) (b : Bool) (l : List ActionEntry) :
    ((setStanding a b l).filter fun e => decide (e.actuator.pass = q)).map (ActionEntry.withStanding true)
      = (l.filter fun e => decide (e.actuator.pass = q)).map (ActionEntry.withStanding true) := by
  induction l with
  | nil => rfl
  | cons e es ih =>
    simp only [setStanding, List.map_cons, List.filter_cons] at ih ⊢
    by_cases hi : e.isIssuedFor a = true
    · rw [if_pos hi, ActionEntry.withStanding_actuator]
      split
      · simp only [List.map_cons, ActionEntry.withStanding_withStanding]; rw [ih]
      · exact ih
    · rw [if_neg hi]
      split
      · simp only [List.map_cons]; rw [ih]
      · exact ih

theorem placeField_spares (x : Queued) (tr : Traffic) : Spares q tr (tr.placeField tb x) := by
  refine ⟨by simp, by simp, ?_⟩
  obtain ⟨b, h⟩ := Traffic.placeField_actions tb x tr
  unfold linesOf
  rcases h with h | h
  · rw [h]
  · rw [h, linesOf_setStanding]

/-- A change of entries of actuators of other passes. -/
theorem Spares.of_actions {l : List ActionEntry} (h : ((l.filter fun e => decide (e.actuator.pass = q)).map
    (ActionEntry.withStanding true)).Sublist (linesOf tr q)) : Spares q tr { tr with actions := l } := ⟨rfl, rfl, h⟩

theorem Spares.of_sublist {l : List ActionEntry} (h : l.Sublist tr.actions) : Spares q tr { tr with actions := l } :=
  .of_actions ((h.filter _).map _)

theorem noteIssue_get (ha : a.pass ≠ q) (d : Direction) (h : Quad (Duo GateHistory)) :
    (noteIssue a d h).get q = h.get q := by
  unfold noteIssue
  split
  · exact Quad.get_set_ne (fun hq => ha hq.symm) _ _
  · rfl
  · rfl

theorem noteRetired_get (ha : a.pass ≠ q) (d : Direction) (h : Quad (Duo GateHistory)) :
    (noteRetired a d h).get q = h.get q := by
  unfold noteRetired
  split
  · exact Quad.get_set_ne (fun hq => ha hq.symm) _ _
  · rfl

theorem markIssued_lines (ha : a.pass ≠ q) (value n : Nat) (tel : Telegram) (l : List ActionEntry) :
    ((markIssued a value n tel l).filter fun e => decide (e.actuator.pass = q))
      = l.filter fun e => decide (e.actuator.pass = q) := by
  induction l with
  | nil => rfl
  | cons e es ih =>
    unfold markIssued
    split
    · rename_i hw
      have he : e.actuator = a := by
        revert hw; unfold ActionEntry.isWaitingFor; split <;> simp
      have h1 : ¬e.actuator.pass = q := he ▸ ha
      simp [h1]
    · simp only [List.filter_cons, ih]

theorem issue_spares (ha : a.pass ≠ q) (value : Nat) (tr : Traffic) : Spares q tr (tr.issue v a value) := by
  unfold Traffic.issue
  split
  · rename_i cp e _ _
    refine Spares.append (tr' :=
      { tr with
        actions := markIssued a value (cp.response.getD 0) (actionTelegram v.tables.device.ownStation cp e value) tr.actions
        history := noteIssue a e.direction tr.history }) ⟨noteIssue_get ha _ _, rfl, ?_⟩ (placeField_spares _ _)
    unfold linesOf
    simp only [markIssued_lines ha]
    exact .refl _
  · exact .refl'

theorem cancelWaiting_spares (reason : Reason) (tr : Traffic) : Spares q tr (tr.cancelWaiting tb a reason) :=
  (Spares.of_sublist List.filter_sublist).append (Spares.foldl _ (fun e _ t => answerEntry_spares e _ _ _ t) _)

theorem removeIssued_spares (tr : Traffic) : Spares q tr (tr.removeIssued a) :=
  (Spares.of_sublist List.eraseP_sublist).append (Spares.of_eq rfl rfl rfl)

theorem joined_spares {e : ActionEntry} (he : e.actuator.pass ≠ q) :
    Spares q tr { tr with actions := tr.actions ++ [e] } := by
  refine .of_actions ?_
  simp [linesOf, he]

theorem enlist_spares (ha : a.pass ≠ q) (value : Nat) (r : Requester) (c : Carried) (tr : Traffic) :
    Spares q tr (tr.enlist v a value r c).1 := by
  unfold Traffic.enlist
  simp only
  split
  · exact .refl'
  · split
    · exact .refl'
    · split
      · exact (joined_spares (e := _) (by exact ha)).append (issue_spares ha _ _)
      · exact joined_spares (by exact ha)

theorem promoteLine_spares (ha : a.pass ≠ q) : ∀ (l : List ActionEntry) (tr : Traffic), Spares q tr (tr.promoteLine v a l)
  | [], tr => .refl'
  | e :: es, tr => by
    unfold Traffic.promoteLine
    simp only
    split
    · split
      · exact (issue_spares ha _ _).append (answerEntry_spares _ _ _ _ _)
      · exact issue_spares ha _ _
    · split
      · exact (issue_spares ha _ _).append (answerEntry_spares _ _ _ _ _)
      · exact issue_spares ha _ _
    · exact ((Spares.of_sublist List.eraseP_sublist).append (answerEntry_spares _ _ _ _ _)).append
        (promoteLine_spares ha es _)
    · exact ((Spares.of_sublist List.eraseP_sublist).append (answerEntry_spares _ _ _ _ _)).append
        (promoteLine_spares ha es _)

theorem issuedEntry_actuator {e : ActionEntry} (h : issuedEntry tr a = some e) : e.actuator = a := by
  have := List.find?_some h
  revert this
  unfold ActionEntry.isIssuedFor
  split <;> simp

theorem confirm_spares (ha : a.pass ≠ q) (tr : Traffic) : Spares q tr (tr.confirm v a) := by
  unfold Traffic.confirm
  split
  · rename_i e he
    split
    · have hea : e.actuator.pass ≠ q := by rw [issuedEntry_actuator he]; exact ha
      unfold Traffic.retire Traffic.promote
      have h1 : Spares q (tr.removeIssued e.actuator)
          { tr.removeIssued e.actuator with
            history := noteRetired e.actuator e.direction (tr.removeIssued e.actuator).history } :=
        ⟨noteRetired_get hea _ _, rfl, .refl _⟩
      exact ((removeIssued_spares tr).append h1).append (promoteLine_spares hea _ _)
    · exact .refl'
  · exact .refl'

theorem attach_spares (e : ActionEntry) (tr : Traffic) : Spares q tr (tr.attach v a e) := by
  unfold Traffic.attach
  split
  · refine Spares.append (.of_actions ?_) (placeField_spares _ _)
    rw [linesOf_setStanding]
    exact .refl _
  · exact .refl'
  · exact .refl'

theorem makeRoom_spares (tr : Traffic) : Spares q tr (tr.makeRoom tb) := by
  unfold Traffic.makeRoom
  split
  · exact .refl'
  · split
    · exact (Spares.of_sublist List.eraseP_sublist).append (answerEntry_spares _ _ _ _ _)
    · exact .refl'

theorem issueSafe_spares (ha : a.pass ≠ q) (o : Option Requester) (c : Carried) (tr : Traffic) :
    Spares q tr (tr.issueSafe v a o c) := by
  unfold Traffic.issueSafe
  simp only
  have h1 := joined_spares (tr := tr.makeRoom v.tables) (q := q) (e :=
    { actuator := a, direction := .safe, value := 0, origin := (takeTag o (tr.makeRoom v.tables).tagCounter).1,
      carried := c, state := .waiting }) (by exact ha)
  exact (((makeRoom_spares (tb := v.tables) tr).append h1).append (.of_eq rfl rfl rfl)).append (issue_spares ha _ _)

theorem takeSafe_spares (ha : a.pass ≠ q) (o : Option Requester) (c : Carried) (tr : Traffic) :
    Spares q tr (tr.takeSafe v a o c) := by
  unfold Traffic.takeSafe
  simp only
  refine (cancelWaiting_spares (tb := v.tables) (a := a) .safePreempt tr).append ?_
  split
  · exact issueSafe_spares ha _ _ _
  · split
    · exact attach_spares _ _
    · exact ((answerEntry_spares _ _ _ _ _).append (removeIssued_spares _)).append (issueSafe_spares ha _ _ _)

theorem originate_spares (ha : a.pass ≠ q) (tr : Traffic) : Spares q tr (tr.originate v a) := by
  unfold Traffic.originate
  split
  · exact takeSafe_spares ha _ _ _
  · exact .refl'

/-! ### The Hold Pool -/

theorem Spares.of_pool {l : List HeldEntry} (h : l.filter (HeldEntry.isOf q) = tr.pool.filter (HeldEntry.isOf q)) :
    Spares q tr { tr with pool := l } := ⟨rfl, h, .refl _⟩

theorem unpark_spares (ha : a.pass ≠ q) (tr : Traffic) : Spares q tr (tr.unpark a) := by
  refine .of_pool ?_
  rw [List.filter_filter]
  apply List.filter_congr
  intro e _
  by_cases he : e.actuator = a
  · simp [HeldEntry.isOf, HeldEntry.isFor, he, ha]
  · simp [HeldEntry.isOf, HeldEntry.isFor, he]

theorem rejudge_spares {e : HeldEntry} (he : e.actuator.pass ≠ q) (tr : Traffic) : Spares q tr (tr.rejudge v e) := by
  have released : ∀ vd, Spares q tr (tr.release v e vd) := by
    intro vd
    unfold Traffic.release
    have h1 := (unpark_spares he tr).append (enlist_spares (v := v) he vd.value e.requester e.carried (tr.unpark e.actuator))
    revert h1
    split <;> rename_i h <;> rw [h] <;> intro h1 <;> exact h1.append (answer_spares _ _ _ _ _)
  unfold Traffic.rejudge
  simp only
  split
  · exact released _
  · exact released _
  · exact (unpark_spares he tr).append (answer_spares _ _ _ _ _)
  · refine .of_pool ?_
    have : ∀ l : List HeldEntry, (l.map fun x => if x.isFor e.actuator then
        { x with reason := (judge v tr e.actuator (requestedValue e.value)).reason } else x).filter (HeldEntry.isOf q)
          = l.filter (HeldEntry.isOf q) := by
      intro l
      induction l with
      | nil => rfl
      | cons x xs ih =>
        simp only [List.map_cons, List.filter_cons, ih]
        by_cases hx : x.actuator = e.actuator
        · simp [HeldEntry.isFor, HeldEntry.isOf, hx, he]
        · simp [HeldEntry.isFor, hx]
    exact this _

theorem round_spares (hp : p ≠ q) (tr : Traffic) : Spares q tr (tr.round v p) := by
  unfold Traffic.round
  refine Spares.foldl _ (fun e he t => ?_) tr
  have : e.actuator.pass = p := by simpa [HeldEntry.isOf] using (List.mem_filter.mp he).2
  exact rejudge_spares (this ▸ hp) t

theorem purge_spares (hp : p ≠ q) (tr : Traffic) : Spares q tr (tr.purge tb p) := by
  unfold Traffic.purge
  refine Spares.append (.of_pool ?_) (Spares.foldl _ (fun e _ t => answer_spares _ _ _ _ t) _)
  rw [List.filter_filter]
  apply List.filter_congr
  intro e _
  by_cases he : e.actuator.pass = q
  · simp [HeldEntry.isOf, he, Ne.symm hp]
  · simp [HeldEntry.isOf, he]

theorem mem_standingOrder (h : a ∈ standingOrder p) : a.pass = p := by
  simp only [standingOrder, List.mem_cons, List.not_mem_nil, or_false] at h
  rcases h with h | h | h | h | h | h | h | h <;> rw [h] <;> rfl

theorem mem_safeStateOrder (h : a ∈ safeStateOrder p) : a.pass = p := by
  simp only [safeStateOrder, List.mem_cons, List.not_mem_nil, or_false] at h
  rcases h with h | h | h | h | h | h | h | h <;> rw [h] <;> rfl

/-- R124: the standing check of a pass forces actuators of that pass alone. -/
theorem mem_standingOrders {tr : Traffic} {f : Actuator × Reason} (h : f ∈ standingOrders v p tr) : f.1.pass = p := by
  obtain ⟨a, ha, hf⟩ := List.mem_filterMap.mp h
  split at hf
  · obtain ⟨r, -, rfl⟩ := Option.map_eq_some_iff.mp hf
    exact mem_standingOrder ha
  · cases hf

theorem change_spares (hp : p ≠ q) (b : Bool) (tr : Traffic) : Spares q tr (tr.change v p b) := by
  unfold Traffic.change
  refine Spares.append ?_ (round_spares hp _)
  split
  · unfold Traffic.standingCheck
    split
    · simp only
      split
      · exact (Spares.foldl _ (fun f hf t => originate_spares (mem_standingOrders hf ▸ hp) t) _).append (.of_eq rfl rfl rfl)
      · exact .refl'
    · exact .refl'
  · exact .refl'

theorem supersede_spares (ha : a.pass ≠ q) (tr : Traffic) : Spares q tr (tr.supersede tb a) := by
  unfold Traffic.supersede
  split
  · exact (unpark_spares ha tr).append (answer_spares _ _ _ _ _)
  · exact .refl'

theorem arriveNonSafe_spares (ha : a.pass ≠ q) (t : Telegram) (tr : Traffic) : Spares q tr (tr.arriveNonSafe v a t) := by
  have admitted : ∀ (vd : Verdict) (f : Traffic → Traffic), (∀ u, Spares q u (f u)) →
      Spares q tr
        (match tr.enlist v a vd.value (requesterOf t) (carriedOf t) with
          | (tr', some reason) => tr'.answer v.tables (requesterOf t) .refused reason 0
          | (tr', none) => f tr') := by
    intro vd f hf
    have h1 := enlist_spares (v := v) ha vd.value (requesterOf t) (carriedOf t) tr
    revert h1
    split
    · rename_i h; rw [h]; intro h1; exact h1.append (answer_spares _ _ _ _ _)
    · rename_i h; rw [h]; intro h1; exact h1.append (hf _)
  unfold Traffic.arriveNonSafe
  simp only
  split
  · exact answer_spares _ _ _ _ _
  · unfold Traffic.park
    split
    · refine Spares.append (.of_pool ?_) (answer_spares _ _ _ _ _)
      simp [HeldEntry.isOf, ha]
    · exact answer_spares _ _ _ _ _
  · exact admitted _ (fun u => u.answer _ _ _ _ _) (fun u => answer_spares _ _ _ _ u)
  · exact admitted _ (fun u => u) (fun u => .refl')

theorem arrive_spares (ha : a.pass ≠ q) (t : Telegram) (tr : Traffic) : Spares q tr (tr.arrive v a t) := by
  unfold Traffic.arrive
  simp only
  refine (supersede_spares (tb := v.tables) ha tr).append ?_
  split
  · exact takeSafe_spares ha _ _ _
  · exact arriveNonSafe_spares ha t _

end

/-! ### The blocks' acts on one pass -/

/-- What an act on pass `p` touches: that pass, and the traffic, of which it spares every other pass. -/
def Within (p : PassId) (s u : State) : Prop :=
  u = { s with passes := u.passes, traffic := u.traffic }
    ∧ ∀ q, q ≠ p → u.pass q = s.pass q ∧ Spares q s.traffic u.traffic

section

variable {p : PassId} {s t u : State}

theorem Within.refl' : Within p s s := ⟨rfl, fun _ _ => ⟨rfl, .refl'⟩⟩

theorem Within.append (h : Within p s t) (h' : Within p t u) : Within p s u := by
  refine ⟨?_, fun q hq => ⟨((h'.2 q hq).1).trans (h.2 q hq).1, (h.2 q hq).2.append (h'.2 q hq).2⟩⟩
  rw [h'.1, h.1]

theorem Within.foldl {α : Type} {f : State → α → State} (l : List α) (hf : ∀ x ∈ l, ∀ s, Within p s (f s x)) :
    ∀ s, Within p s (l.foldl f s) := by
  induction l with
  | nil => exact fun s => .refl'
  | cons x xs ih => intro s; exact (hf x (by simp) s).append (ih (fun y hy => hf y (by simp [hy])) _)

theorem Within.tables_eq (h : Within p s u) : u.tables = s.tables := by rw [h.1]
theorem Within.time_eq (h : Within p s u) : u.time = s.time := by rw [h.1]
theorem Within.silence_eq (h : Within p s u) : u.silence = s.silence := by rw [h.1]
theorem Within.resetPending_eq (h : Within p s u) : u.resetPending = s.resetPending := by rw [h.1]

theorem Within.elsewhere (h : Within p s u) : elsewhere p s u := fun q hq =>
  ⟨(h.2 q hq).1, (h.2 q hq).2.1, (h.2 q hq).2.2.1, (h.2 q hq).2.2.2⟩

theorem Within.reportFrame (h : Within p s u) : reportFrame p s u := ⟨h.1, h.elsewhere⟩

theorem setPass_within (x : Pass) : Within p s (s.setPass p x) := by
  refine ⟨rfl, fun q hq => ⟨?_, .refl'⟩⟩
  exact Quad.get_set_ne hq _ _

theorem onTraffic_within {f : View → Traffic → Traffic} (h : ∀ q, q ≠ p → Spares q s.traffic (f s.view s.traffic)) :
    Within p s (s.onTraffic f) := ⟨rfl, fun q hq => ⟨rfl, h q hq⟩⟩

theorem raise_within (src : NoticeSource) (cls : NoticeClass) (n : Nat) : Within p s (s.raise src cls n) :=
  onTraffic_within fun _ _ => .of_eq rfl rfl rfl

theorem reportChange_within : Within p s (s.reportChange p) :=
  onTraffic_within fun _ hq => change_spares (Ne.symm hq) _ _

theorem reportStandingChange_within : Within p s (s.reportStandingChange p) :=
  onTraffic_within fun _ hq => change_spares (Ne.symm hq) _ _

theorem originate_within {a : Actuator} (ha : a.pass = p) : Within p s (s.originate a) :=
  onTraffic_within fun _ hq => originate_spares (ha ▸ Ne.symm hq) _

theorem force_within {a : Actuator} (ha : a.pass = p) (r : Reason) : Within p s (s.force a r) := by
  unfold State.force
  split
  · exact (originate_within ha).append (raise_within _ _ _)
  · exact .refl'

theorem alertCause_within (c : Cause) (tel : Option Interrupted) : Within p s (s.alertCause p c tel) := by
  unfold State.alertCause
  simp only
  split
  · exact ((setPass_within _).append (raise_within _ _ _)).append reportStandingChange_within
  · exact setPass_within _
  · exact setPass_within _
  · exact .refl'
  · exact .refl'

theorem enterTripped_within (c : Cause) (tel : Option Interrupted) : Within p s (s.enterTripped p c tel) := by
  unfold State.enterTripped
  simp only
  have safed : ∀ s : State, Within p s
      (s.onTraffic fun v tr => (safeStateOrder p).foldl (fun t a => t.originate v a) tr) := fun s =>
    onTraffic_within fun q hq =>
      Spares.foldl _ (fun a ha t => originate_spares (mem_safeStateOrder ha ▸ Ne.symm hq) t) _
  have purged : ∀ s : State, Within p s (s.onTraffic fun v tr => tr.purge v.tables p) := fun s =>
    onTraffic_within fun q hq => purge_spares (Ne.symm hq) _
  exact ((((setPass_within _).append (safed _)).append (purged _)).append (raise_within _ _ _)).append
    reportChange_within

theorem tripCause_within (c : Cause) (tel : Option Interrupted) : Within p s (s.tripCause p c tel) := by
  unfold State.tripCause
  simp only
  split
  · exact enterTripped_within _ _
  · exact enterTripped_within _ _
  · exact setPass_within _
  · exact .refl'
  · exact .refl'

theorem failAction_within {e : ActionEntry} (he : e.actuator.pass = p) (tel : Option Interrupted) :
    Within p s (s.failAction e tel) := by
  subst he
  have h1 : Within e.actuator.pass s (s.onTraffic fun v tr => tr.dropFailed v.tables e.actuator) :=
    onTraffic_within fun q _ => (removeIssued_spares _).append (cancelWaiting_spares _ _)
  unfold State.failAction
  simp only
  split
  · exact ((h1.append (raise_within _ _ _)).append (originate_within rfl)).append (alertCause_within _ _)
  · exact (h1.append (raise_within _ _ _)).append (tripCause_within _ _)

theorem candidate_within {a : Actuator} (ha : a.pass = p) (x : Telegram) : Within p s (s.candidate a x) := by
  have h1 : Within p s (s.onTraffic fun v tr => tr.confirm v a) :=
    onTraffic_within fun q hq => confirm_spares (ha ▸ Ne.symm hq) _
  unfold State.candidate
  split
  · rename_i e he
    split
    · exact failAction_within (by rw [issuedEntry_actuator he]; exact ha) _
    · exact h1
  · exact h1

theorem handBand_within (before : Band) : Within p s (s.handBand p before) := by
  unfold State.handBand
  simp only
  split
  · exact .refl'
  · exact (raise_within _ _ _).append reportStandingChange_within

theorem evaluate_within (o u : Bool) (tel : Option Interrupted) : Within p s (s.evaluate p o u tel) := by
  unfold State.evaluate
  simp only
  split
  · exact .refl'
  · split
    · exact (setPass_within _).append (handBand_within _)
    · exact (setPass_within _).append (Within.foldl _ (fun c _ s => alertCause_within c tel) _)

theorem setStanding_within (n : TipId) : Within p s (s.setStanding p n) := by
  unfold State.setStanding
  simp only
  split
  · exact .refl'
  · refine Within.append ?_ reportChange_within
    split
    · exact (setPass_within _).append (force_within rfl _)
    · exact setPass_within _

theorem completeColumn_within (before : Column) (o u : Bool) (tel : Option Interrupted) :
    Within p s (s.completeColumn p before o u tel) := by
  unfold State.completeColumn
  simp only
  refine Within.append ?_ (Within.foldl _ (fun n _ s => ?_) _)
  · split
    · exact evaluate_within _ _ _
    · exact (evaluate_within _ _ _).append reportStandingChange_within
  · unfold State.handAccumulator
    split
    · exact .refl'
    · exact setStanding_within n

theorem changeColumn_within (c : Column) (o u : Bool) (tel : Option Interrupted) :
    Within p s (s.changeColumn p c o u tel) := (setPass_within _).append (completeColumn_within _ _ _ _)

theorem emptySlot_within (n : Nat) : Within p s (s.emptySlot p n) := by
  unfold State.emptySlot
  simp only
  split
  · exact .refl'
  · exact ((setPass_within _).append (raise_within _ _ _)).append reportChange_within

theorem relayFrom_within (port : PortId) (x : Telegram) : Within p s (s.relayFrom port x) := by
  refine onTraffic_within fun q _ => ?_
  cases port
  · exact placeField_spares _ _
  · exact .of_eq rfl rfl rfl

theorem relayApplied_within (h : Hit) (x : Telegram) : Within p s (s.relayApplied h x) := by
  unfold State.relayApplied
  split
  · exact relayFrom_within _ _
  · exact relayFrom_within _ _
  · exact .refl'

theorem levelReport_within (h : Hit) (x : Telegram) : Within h.pass s (levelReport h x s) :=
  (setPass_within _).append (evaluate_within _ _ _)

theorem tipReport_within (h : Hit) (x : Telegram) : Within h.pass s (tipReport h x s) := by
  unfold tipReport
  split
  · exact .refl'
  · exact changeColumn_within _ _ _ _

theorem drawReport_within (h : Hit) (x : Telegram) : Within h.pass s (drawReport h x s) := by
  unfold drawReport
  split
  · exact .refl'
  · exact changeColumn_within _ _ _ _

theorem grizzlyClearReport_within (h : Hit) (x : Telegram) : Within h.pass s (grizzlyClearReport h x s) := by
  unfold grizzlyClearReport
  split
  · exact .refl'
  · exact changeColumn_within _ _ _ _

/-- An act is taken or not. -/
theorem Within.ite {b : Prop} [Decidable b] (h : Within p s t) (h' : Within p s u) : Within p s (if b then t else u) := by
  split
  · exact h
  · exact h'

theorem Within.iteTrip {b : Prop} [Decidable b] {k : Cause} {tl : Option Interrupted} (h : Within p s t) :
    Within p s (if b then t.tripCause p k tl else t) := .ite (h.append (tripCause_within _ _)) h

theorem Within.iteForce {b : Prop} [Decidable b] {a : Actuator} {r : Reason} (ha : a.pass = p) (h : Within p s t) :
    Within p s (if b then t.force a r else t) := .ite (h.append (force_within ha _)) h

theorem Within.iteReport {b : Prop} [Decidable b] (h : Within p s t) :
    Within p s (if b then t else t.reportChange p) := .ite h (h.append reportChange_within)

theorem moistureAtColumn_within (w : Wetness) (x : Telegram) : Within p s (moistureAtColumn p w x s) :=
  Within.ite .refl' (changeColumn_within _ _ _ _)

theorem moistureAtChute_within (c : ChuteId) (w : Wetness) (x : Telegram) : Within p s (moistureAtChute p c w x s) :=
  Within.ite ((setPass_within _).append (tripCause_within _ _)) (setPass_within _)

theorem chuteMoistureReport_within (h : Hit) (x : Telegram) : Within h.pass s (chuteMoistureReport h x s) :=
  (moistureAtColumn_within _ _).append (moistureAtChute_within _ _ _)

theorem gatePositionReport_within (h : Hit) (x : Telegram) : Within h.pass s (gatePositionReport h x s) := by
  unfold gatePositionReport
  simp only
  exact (Within.iteReport (.iteTrip (.iteTrip (setPass_within _)))).append (candidate_within rfl _)

theorem signalStateReport_within (h : Hit) (x : Telegram) : Within h.pass s (signalStateReport h x s) := by
  unfold signalStateReport
  split
  · exact .refl'
  · exact (Within.iteReport (.iteForce rfl (.iteTrip (setPass_within _)))).append (candidate_within rfl _)

theorem breakerStateReport_within (h : Hit) (x : Telegram) : Within h.pass s (breakerStateReport h x s) := by
  unfold breakerStateReport
  split
  · exact .refl'
  · exact (Within.iteReport (.iteTrip (setPass_within _))).append (candidate_within rfl _)

theorem wagonReport_within (h : Hit) (x : Telegram) : Within h.pass s (wagonReport h x s) := by
  unfold wagonReport
  split
  · exact .refl'
  · exact Within.iteReport (.iteForce rfl (setPass_within _))

theorem noticePostReport_within (h : Hit) (x : Telegram) : Within h.pass s (noticePostReport h x s) := by
  unfold noticePostReport
  split
  · exact .refl'
  · simp only
    split
    · exact raise_within _ _ _
    · exact ((setPass_within _).append (raise_within _ _ _)).append reportChange_within

/-- A report touches its own pass alone. -/
theorem reportEffect_within (r : Role) (h : Hit) (x : Telegram) : Within h.pass s (reportEffect r h x s) := by
  cases r
  case level => exact levelReport_within h x
  case tip => exact tipReport_within h x
  case draw => exact drawReport_within h x
  case grizzlyClear => exact grizzlyClearReport_within h x
  case chuteMoisture => exact chuteMoistureReport_within h x
  case gatePosition => exact gatePositionReport_within h x
  case signalState => exact signalStateReport_within h x
  case breakerState => exact breakerStateReport_within h x
  case wagon => exact wagonReport_within h x
  case noticePost => exact noticePostReport_within h x
  case noticeTaken => exact emptySlot_within _
  all_goals exact .refl'

end

end Sys2Proof.Machine
end

