-- ==== Sys2Proof/Laws/Records.lean ====
section
/-! SUPPORT. What each block's act on a pass does to that pass's record: causes move its state and alarm record, an
evaluation its estimate, a column change its column and the standings of its grizzlies. -/

namespace Sys2Proof.Machine

variable {p : PassId} {s : State} {c : Cause} {tel : Option Interrupted}

@[simp] theorem State.force_pass (a : Actuator) (r : Reason) (q : PassId) : (s.force a r).pass q = s.pass q := by
  unfold State.force
  split <;> simp

@[simp] theorem State.relayApplied_pass (h : Hit) (x : Telegram) (q : PassId) : (s.relayApplied h x).pass q = s.pass q := by
  unfold State.relayApplied
  split <;> simp

/-! ### Causes -/

/-- R153: what an alert cause does to the record of its pass. -/
theorem alertCause_pass :
    (s.alertCause p c tel).pass p =
      { s.pass p with
        mode := if (s.pass p).mode = .running then .alert else (s.pass p).mode
        alarm := ((s.alertCause p c tel).pass p).alarm } := by
  unfold State.alertCause
  cases hm : (s.pass p).mode <;> simp [hm] <;> (rw [← hm])

/-- R152, R153: the record after an alert cause. -/
theorem alertCause_record : (s.alertCause p c tel).pass p = (s.pass p).withAlert c s.time tel := by
  unfold State.alertCause Pass.withAlert
  cases hm : (s.pass p).mode <;> simp [hm, raisedAlarm]

theorem enterTripped_pass :
    (s.enterTripped p c tel).pass p =
      { s.pass p with
        mode := .tripped
        alarm := raisedAlarm .trip c (secondaryAtTrip (s.pass p)) s.time (s.pass p).est tel } := by
  simp [State.enterTripped]

/-- R154: what a trip cause does to the record of its pass. -/
theorem tripCause_pass :
    (s.tripCause p c tel).pass p =
      { s.pass p with
        mode := (s.pass p).mode.afterTrip True
        alarm := ((s.tripCause p c tel).pass p).alarm } := by
  unfold State.tripCause
  cases hm : (s.pass p).mode <;> simp [hm, PassState.afterTrip, PassState.isLive, enterTripped_pass] <;> (rw [← hm])

/-- R152, R154: the record after a trip cause. -/
theorem tripCause_record : (s.tripCause p c tel).pass p = (s.pass p).withTrip c s.time tel := by
  unfold State.tripCause Pass.withTrip
  cases hm : (s.pass p).mode <;> simp only [enterTripped_pass, raisedAlarm, secondaryAtTrip, hm, State.setPass_pass_self]
  cases (s.pass p).alarm.primary <;> rfl

theorem afterTrip_of_not {m : PassState} {b : Prop} [Decidable b] (h : ¬b) : m.afterTrip b = m := by
  simp [PassState.afterTrip, h]

theorem afterTrip_of {m : PassState} {b : Prop} [Decidable b] (h : b) : m.afterTrip b = m.afterTrip True := by
  simp [PassState.afterTrip, h]

/-- A second trip cause finds the pass no longer live. -/
@[simp] theorem afterTrip_afterTrip {m : PassState} {b d : Prop} [Decidable b] [Decidable d] :
    (m.afterTrip b).afterTrip d = m.afterTrip (b ∨ d) := by
  unfold PassState.afterTrip
  by_cases hb : b <;> by_cases hd : d <;> cases m <;> simp [hb, hd, PassState.isLive]

/-- A trip cause found or not. -/
theorem tripIf_pass {b : Prop} [Decidable b] :
    (if b then s.tripCause p c tel else s).pass p =
      { s.pass p with
        mode := (s.pass p).mode.afterTrip b
        alarm := ((if b then s.tripCause p c tel else s).pass p).alarm } := by
  by_cases hb : b
  · simp only [if_pos hb]
    rw [tripCause_pass, afterTrip_of hb]
  · simp [if_neg hb, afterTrip_of_not hb]

/-! ### Evaluations -/

theorem alertFold_pass (l : List Cause) : ∀ s : State,
    (l.foldl (fun st cause => st.alertCause p cause tel) s).pass p =
      { s.pass p with
        mode := if (s.pass p).mode = .running ∧ l ≠ [] then .alert else (s.pass p).mode
        alarm := ((l.foldl (fun st cause => st.alertCause p cause tel) s).pass p).alarm } := by
  induction l with
  | nil => intro s; simp
  | cons d ds ih =>
    intro s
    rw [List.foldl_cons, ih]
    have h1 := alertCause_pass (p := p) (s := s) (c := d) (tel := tel)
    generalize (s.alertCause p d tel).pass p = y at h1
    rw [h1]
    by_cases hm : (s.pass p).mode = .running <;> simp [hm]

/-- R73, R152: alert causes handed one after another move the record one after another. -/
theorem alertFold_record (l : List Cause) : ∀ s : State,
    (l.foldl (fun st cause => st.alertCause p cause tel) s).pass p
      = l.foldl (fun y cause => y.withAlert cause s.time tel) (s.pass p) := by
  induction l with
  | nil => intro s; rfl
  | cons d ds ih =>
    intro s
    rw [List.foldl_cons, ih, alertCause_record, (alertCause_within d tel).time_eq, List.foldl_cons]

@[simp] theorem handBand_pass (before : Band) (q : PassId) : (s.handBand p before).pass q = s.pass q := by
  unfold State.handBand
  simp only
  split <;> simp

/-- R62 to R72: what one evaluation does to the record of its pass. -/
theorem evaluate_pass (o u : Bool) (h : (s.pass p).mode ≠ .unconfigured) :
    (s.evaluate p o u tel).pass p =
      { s.pass p with
        est := (s.pass p).evaluated (s.params p) o u
        mode := (s.pass p).stateEvaluated (s.params p) o u
        alarm := ((s.evaluate p o u tel).pass p).alarm } := by
  unfold State.evaluate
  simp only [if_neg h]
  split
  · rename_i he
    simp [Pass.evaluated, Pass.stateEvaluated, he]
  · rename_i k ks he
    rw [alertFold_pass]
    simp [Pass.evaluated, Pass.stateEvaluated, he]

/-- R62 to R73, R152: the record after one evaluation. -/
theorem evaluate_record (o u : Bool) (h : (s.pass p).mode ≠ .unconfigured) :
    (s.evaluate p o u tel).pass p = (s.pass p).afterEvaluation (s.params p) o u s.time tel := by
  unfold State.evaluate Pass.afterEvaluation Pass.evaluated
  simp only [if_neg h]
  split
  · rename_i he
    simp [he]
  · rename_i c cs he
    rw [alertFold_record, State.setPass_pass_self, he, if_neg (List.cons_ne_nil c cs)]
    rfl

/-! ### Columns -/

theorem setStanding_pass (n : TipId) :
    (s.setStanding p n).pass p =
      { s.pass p with
        tips := (s.pass p).tips.set n
          { (s.pass p).tips.get n with
            standing := standingOf ((s.tables.grizzly.get p).get n) ((s.pass p).column.accums.get n).tonnage } } := by
  unfold State.setStanding
  simp only
  split
  · rename_i h
    have hget : ∀ (d : Trio TipRecord) (i : Fin 3), d.set i (d.get i) = d := by
      intro d i
      match i with
      | 0 => rfl
      | 1 => rfl
      | 2 => rfl
    have : ({ (s.pass p).tips.get n with
        standing := standingOf ((s.tables.grizzly.get p).get n) ((s.pass p).column.accums.get n).tonnage } : TipRecord)
          = (s.pass p).tips.get n := by rw [h]
    rw [this, hget]
  · split <;> simp

theorem handAccumulator_pass (before : Column) (n : TipId) :
    (State.handAccumulator p before s n).pass p =
      { s.pass p with
        tips := (s.pass p).tips.set n
          (((s.pass p).tips.get n).following ((s.tables.grizzly.get p).get n) (before.accums.get n).tonnage
            ((s.pass p).column.accums.get n).tonnage) } := by
  unfold State.handAccumulator TipRecord.following
  split
  · rename_i h
    have hget : ∀ (d : Trio TipRecord) (i : Fin 3), d.set i (d.get i) = d := by
      intro d i
      match i with
      | 0 => rfl
      | 1 => rfl
      | 2 => rfl
    simp only [hget]
  · rename_i h
    exact setStanding_pass n

@[simp] theorem handAccumulator_tables (before : Column) (n : TipId) :
    (State.handAccumulator p before s n).tables = s.tables := by
  have : Within p s (State.handAccumulator p before s n) := by
    unfold State.handAccumulator
    split
    · exact .refl'
    · exact setStanding_within n
  exact this.tables_eq

/-- R44, R45: what the completion of a column change does to the record of its pass. -/
theorem completeColumn_pass (before : Column) (o u : Bool) (h : (s.pass p).mode ≠ .unconfigured) :
    columnChanged s.tables p before o u s.time tel (s.pass p) ((s.completeColumn p before o u tel).pass p) := by
  have hev : (s.evaluate p o u tel).pass p =
      { s.pass p with
        est := (s.pass p).evaluated (s.params p) o u
        mode := (s.pass p).stateEvaluated (s.params p) o u
        alarm := ((s.pass p).afterEvaluation (s.params p) o u s.time tel).alarm } := by
    rw [← evaluate_record o u h]
    exact evaluate_pass o u h
  have htold : ∃ t : State, t.tables = s.tables
      ∧ t.pass p = { s.pass p with
          est := (s.pass p).evaluated (s.params p) o u
          mode := (s.pass p).stateEvaluated (s.params p) o u
          alarm := ((s.pass p).afterEvaluation (s.params p) o u s.time tel).alarm }
      ∧ s.completeColumn p before o u tel = allTips.foldl (State.handAccumulator p before) t := by
    unfold State.completeColumn
    simp only
    refine ⟨_, ?_, ?_, rfl⟩
    · split
      · exact (evaluate_within _ _ _).tables_eq
      · exact ((evaluate_within _ _ _).append reportStandingChange_within).tables_eq
    · split
      · exact hev
      · simpa using hev
  obtain ⟨t, ht, hp, he⟩ := htold
  rw [he]
  simp only [allTips, List.foldl_cons, List.foldl_nil]
  constructor
  · rw [handAccumulator_pass, handAccumulator_pass, handAccumulator_pass, hp]
    rfl
  · intro n
    rw [handAccumulator_pass, handAccumulator_pass, handAccumulator_pass]
    simp only [handAccumulator_tables, ht]
    have h1 : (t.pass p).column = (s.pass p).column := by rw [hp]
    have h2 : (t.pass p).tips = (s.pass p).tips := by rw [hp]
    rw [h1, h2]
    match n with
    | 0 => rfl
    | 1 => rfl
    | 2 => rfl

/-- R44, R45: what a column change does to the record of its pass. -/
theorem changeColumn_pass (col : Column) (o u : Bool) (h : (s.pass p).mode ≠ .unconfigured) :
    columnChanged s.tables p (s.pass p).column o u s.time tel { s.pass p with column := col }
      ((s.changeColumn p col o u tel).pass p) := by
  have := completeColumn_pass (s := s.setPass p { s.pass p with column := col }) (p := p) (tel := tel) (s.pass p).column o u
    (by simpa using h)
  rw [State.setPass_pass_self] at this
  exact this

@[simp] theorem emptySlot_pass (n : Nat) : (s.emptySlot p n).pass p = { s.pass p with slot := none } := by
  unfold State.emptySlot
  simp only
  split
  · rename_i h; rw [← h]
  · simp

/-! ### Failures -/

theorem failAction_pass {e : ActionEntry} (he : e.actuator.pass = p) :
    (s.failAction e tel).pass p =
      { s.pass p with
        mode := match e.direction with
          | .nonSafe => if (s.pass p).mode = .running then .alert else (s.pass p).mode
          | .safe => (s.pass p).mode.afterTrip True
        alarm := ((s.failAction e tel).pass p).alarm } := by
  subst he
  unfold State.failAction
  simp only
  cases e.direction with
  | nonSafe => simp only; rw [alertCause_pass]; rfl
  | safe => simp only; rw [tripCause_pass]; rfl

end Sys2Proof.Machine
end

