-- ==== Sys2Proof/WellFormed.lean ====
section
/-! DEFINITION. Which commands are well-formed: what a row of the opcode table says of its telegram or its operands
alone, whatever state it meets (R1, R5 to R9, R18, R169). The rest of a telegram's fate depends on the state, and
`Machine.fate` gives it. -/

namespace Sys2Proof

open Machine

/-- A telegram that passes its check and has a valid address (R5, R6). -/
def goodTelegram (t : Telegram) : Bool := checkHolds t && addressValid t

/-- A good telegram to a single station (R7, R8). -/
def unicast (t : Telegram) : Bool := goodTelegram t && t.dest != broadcastStation

/-- A unicast telegram of kind `k` whose Point a Point Table entry can hold (R18). -/
def pointed (k : Byte) (t : Telegram) : Bool := unicast t && t.kind == k && decide (t.point.toNat ≤ 63)

/-- A unicast MRQ with request `r` (R169). -/
def requests (t : Telegram) (f : Request → Bool) : Bool := unicast t && t.kind == kindMRQ && f (requestOf t)

/-- What a row says of its command alone. -/
def Instr.wellFormed : Instr → Bool
  | .powerOn => true
  | .lineFree _ => true
  | .lineCheckFail _ t => !checkHolds t
  | .invalidAddress _ t => checkHolds t && !addressValid t
  | .relay _ t => unicast t
  | .broadcast _ t => goodTelegram t && t.dest == broadcastStation
  | .refusedPort t => unicast t && t.kind == kindMRQ
  | .gateSet t | .signalSet t | .breakerSet t => pointed kindCMD t
  | .level t | .tip t | .draw t | .grizzlyClear t | .chuteMoisture t | .gatePosition t | .wagon t | .signalState t
  | .breakerState t | .noticePost t | .noticeTaken t => pointed kindRPT t
  | .lineSilenceExpiry order => decide order.Nodup
  | .sampleStale _ => true
  | .holdExpiry _ => true
  | .deadlineExpiry _ => true
  | .unknownRequest t => requests t fun r => decide (r = .unknown)
  | .readItem t => requests t fun r => decide (r = .readItem)
  | .tableRead t => requests t fun r =>
      match r with
      | .tableRead _ => true
      | _ => false
  | .writeEntry t => requests t fun r =>
      match r with
      | .writeEntry _ => true
      | _ => false
  | .writeValid t => requests t fun r =>
      match r with
      | .writeValid _ => true
      | _ => false
  | .writePointField t => requests t fun r =>
      match r with
      | .writePointField _ _ => true
      | _ => false
  | .writeConfigured t => requests t fun r =>
      match r with
      | .writeConfigured _ => true
      | _ => false
  | .writeL t => requests t fun r =>
      match r with
      | .writeL _ => true
      | _ => false
  | .writeGrizzlyLimit t => requests t fun r =>
      match r with
      | .writeGrizzlyLimit _ _ => true
      | _ => false
  | .writeLineSilenceTime t => requests t fun r => decide (r = .writeLineSilenceTime)
  | .isolateRequest t => requests t fun r => decide (r = .isolateRequest)
  | .isolateConfirm t => requests t fun r => decide (r = .isolateConfirm)
  | .restore t => requests t fun r => decide (r = .restore)
  | .acknowledge t => requests t fun r => decide (r = .acknowledge)
  | .passReset t => requests t fun r => decide (r = .passReset)
  | .surveyLoad t => requests t fun r => decide (r = .surveyLoad)
  | .clearFlags t => requests t fun r => decide (r = .clearFlags)
  | .timeSet t => requests t (fun r => decide (r = .timeSet)) || goodTelegram t && t.dest == broadcastStation && isTimeSet t
  | .deviceReset t => requests t fun r => decide (r = .deviceReset)
  | .ownStationOtherKind _ t => unicast t && t.kind != kindMRQ
  | .discardWhileResetPending _ t => checkHolds t

end Sys2Proof
end

