-- ==== Sys2Proof/Tests/Slice0.lean ====
section
/-! SUPPORT. Tests of the model against the manual's worked examples, and witnesses for the statements' hypotheses: for
each statement with hypotheses, a small state and operands that meet those of each clause. -/

set_option Elab.async false

namespace Sys2Proof.Tests

open Machine

/-! ### Fixtures -/

/-- A checked telegram. -/
def msg (dest src kind point tag qual table : Byte) (value : Int) (ext : Half) : Telegram :=
  withCheck
    { dest := dest, src := src, kind := kind, point := point, tag := tag, qual := qual, ann := 0, table := table
      value := BitVec.ofInt 32 value, ext := ext, check := 0 }

/-- A command of station 2, tag 70, for a point of field station 10. -/
def cmd (point : Byte) (value : Int) : Telegram := msg 10 2 1 point 70 0 0 value 0

/-- A report of field station 10 to control station 2. -/
def rpt (point : Byte) (value : Int) (qual : Byte := 0) (ext : Half := 0) : Telegram := msg 2 10 2 point 0 qual 0 value ext

/-- A management request of station 2, tag 5. -/
def mrq (code : Byte) (table : Byte := 0) (value : Int := 0) (qual : Byte := 0) (ext : Half := 0) : Telegram :=
  msg 1 2 5 code 5 qual table value ext

/-- A telegram that does not pass its check. -/
def garbled : Telegram := { cmd 0 60 with check := (cmd 0 60).check + 1 }

def entry (point : Nat) (role : Role) (mode : HandlingMode) (num den response : Nat) : PointEntry :=
  { valid := true, station := some 10, point := some (BitVec.ofNat 8 point), role := some role, pass := some 0
    object := some 0, mode := some mode, scaleNum := some num, scaleDen := some den, response := some response
    tolerance := some 3 }

/-- Points 0 to 13 of station 10 give the fourteen roles, in code order, to pass 0, chute 0 and tip point 0. -/
def entries : List PointEntry :=
  [entry 0 .gateSet .forward 1 1 150, entry 1 .signalSet .forward 1 1 100, entry 2 .breakerSet .forward 1 1 100,
   entry 3 .gatePosition .annotate 1 1 100, entry 4 .wagon .forward 1 1 100, entry 5 .draw .forward 1 1 100,
   entry 6 .chuteMoisture .forward 1 1 100, entry 7 .level .absorb 1 10 100, entry 8 .tip .forward 1 1 100,
   entry 9 .signalState .forward 1 1 100, entry 10 .breakerState .forward 1 1 100,
   entry 11 .grizzlyClear .forward 1 1 100, entry 12 .noticePost .forward 1 1 100, entry 13 .noticeTaken .forward 1 1 100]

/-- The parameters of section 4.9. -/
def params : PassParams := { factoryParams with configured := true, len := 3000, cushion := 300, highFill := 400, hysteresis := 20 }

def tables : Tables :=
  { factoryTables with
    points := ⟨(entries ++ List.replicate 114 blankPoint).toArray, rfl⟩
    params := factoryTables.params.set 0 params }

def charge (number : Half) (origin : Origin) (remaining : Nat) (wetness : Wetness) : Charge :=
  { number := number, origin := origin, placed := remaining, remaining := remaining, wetness := wetness
    oversize := false, placedAt := 1000, merge := none }

/-- The column of section 4.9: 3050 Damp, 3600 Dry, 2750 Wet, 1900 Dry. -/
def column : Column :=
  { clearedColumn with
    charges := [charge 0 .survey 3050 .damp, charge 1 (.tip 0) 3600 .dry, charge 2 (.tip 1) 2750 .wet, charge 3 (.tip 2) 1900 .dry]
    counter := 4
    base := 11300
    surveyed := true }

/-- Pass 0: RUNNING in NORMAL, its gate confirmed closed, its wagon PRESENT, its signal OFF, its breaker PARKED. -/
def pass0 : Pass :=
  { clearedPass .running with
    column := column
    est := { clearedEstimate with h := 452, hc := 432, hs := 459, band := .normal }
    tips := Trio.all { signal := .isOff, breaker := .parked, standing := .below }
    chutes := Duo.all { gate := some 0, wagon := .present, moisture := some .damp } }

/-- A part with pass 0 in service, both lines idle, nothing queued. -/
def demo : State :=
  { State.reset with
    tables := tables
    passes := (Quad.all (clearedPass .unconfigured)).set 0 pass0
    traffic := { clearedTraffic with history := Quad.all (Duo.all { reference := .closed, lastIssued := .closing }) }
    time := 2000 }

/-- The demonstration state with pass 0 changed. -/
def demoWith (f : Pass → Pass) : State := { demo with passes := demo.passes.set 0 (f pass0) }

def demoIn (m : PassState) : State := demoWith fun x => { x with mode := m }

def gate : Actuator := .gate 0 0
def signal : Actuator := .signal 0 0
def breaker : Actuator := .breaker 0 0

/-- An ISSUED entry, its telegram SENT. -/
def issued (a : Actuator) (d : Direction) (value : Nat) : ActionEntry :=
  { actuator := a, direction := d, value := value, origin := .station { src := 2, tag := 70, point := 0 }
    carried := noCarried, state := .issued 100 true (cmd 0 value) }

def waiting (a : Actuator) (value : Nat) : ActionEntry :=
  { actuator := a, direction := .nonSafe, value := value, origin := .station { src := 3, tag := 71, point := 0 }
    carried := noCarried, state := .waiting }

def held (a : Actuator) (value : Int) : HeldEntry :=
  { actuator := a, requester := { src := 2, tag := 40, point := 0 }, value := BitVec.ofInt 32 value, carried := noCarried
    timer := 600, reason := .table }

def withActions (l : List ActionEntry) (s : State) : State := { s with traffic := { s.traffic with actions := l } }

def withPool (l : List HeldEntry) (s : State) : State := { s with traffic := { s.traffic with pool := l } }

/-- A telegram of another station, in transmission. -/
def busyLine : Sending := { tel := cmd 20 0, endsInReset := false }

def relayed (t : Telegram) : Queued := { tel := t, cls := .relayed }

/-- Both lines busy, with these queues. -/
def withQueues (ctl field : List Queued) (notices : List NoticeEntry) (s : State) : State :=
  { s with
    traffic := { s.traffic with
      ctl := { port := { queue := ctl, overrun := false, sending := some busyLine }, notices := notices }
      field := { queue := field, overrun := false, sending := some busyLine } } }

/-- The next state (a command always has one). -/
def after (c : Instr) (s : State) : State :=
  match exec c s with
  | .next u => u
  | .fault _ | .refused _ => s

/-- What stands on the Control Port line: kind, Qualifier, Annotation, Value. -/
def said (s : State) : Option (Byte × Byte × Byte × Word) :=
  s.traffic.ctl.port.sending.map fun x => (x.tel.kind, x.tel.qual, x.tel.ann, x.tel.value)

/-- The notices made, by class and detail, behind the one that an idle line has taken. -/
def noticed (s : State) : List (NoticeClass × Nat) := s.traffic.ctl.notices.map fun e => (e.cls, e.detail)

/-- The Action Queue: actuator, direction, value. -/
def queued (s : State) : List (Actuator × Direction × Nat) :=
  s.traffic.actions.map fun e => (e.actuator, e.direction, e.value)

/-- The hit of point `i` of station 10. -/
def hitAt (i : Fin 14) : Option Hit := lookup tables 10 (BitVec.ofNat 8 i.val)

/-! ### The line check and the sorting of telegrams (chapters 1 and 2) -/

/-- The published check value of this code (polynomial 0x1021, start 0xFFFF, no inversion) for the digits 1 to 9. -/
theorem test_check_of_digits : lineCheck [0x31, 0x32, 0x33, 0x34, 0x35, 0x36, 0x37, 0x38, 0x39] = 0x29B1#16 := by
  decide +kernel

/-! ### One command at a time (the manual's worked examples; R numbers where there is none) -/

/-- R176: start-up trips nothing, brings a configured pass back in ALERT with cause RESTART, and orders its actuators
safe, the signal first. -/
theorem test_power_on :
    let u := after .powerOn demo
    ((u.pass 0).mode, (u.pass 0).alarm.primary, queued u) =
      (.alert, some .restart, [(signal, .safe, 0), (gate, .safe, 0), (breaker, .safe, 0)]) := by decide +kernel

/-- The second half of "a full Field Port queue": the safe command goes ahead of older telegrams. -/
theorem test_line_free_field :
    let q := [relayed (cmd 20 1), { tel := cmd 2 0, cls := .action breaker .safe }, { tel := cmd 0 0, cls := .action gate .safe }]
    let u := after (.lineFree .field) (withQueues [] q [] demo)
    (u.traffic.field.queue.length, u.traffic.field.sending.map Sending.tel) = (2, some (cmd 2 0)) := by decide +kernel

/-- R14: an Answer goes before a relayed telegram that is older. -/
theorem test_line_free_control :
    let u := after (.lineFree .control) (withQueues [relayed (rpt 20 1), { tel := cmd 9 9, cls := .verdict }] [] [] demo)
    u.traffic.ctl.port.sending.map Sending.tel = some (cmd 9 9) := by decide +kernel

/-- R5: a garbled telegram does not even restart the line-silence timer. -/
theorem test_line_check_fail : after (.lineCheckFail .control garbled) { demo with silence := some 7 } = { demo with silence := some 7 } := by
  decide +kernel

/-- R6, R16: an invalid address is discarded; the line-silence timer starts anew. -/
theorem test_invalid_address :
    after (.invalidAddress .control (msg 254 2 1 0 70 0 0 1 0)) { demo with silence := some 7 } = demo := by decide +kernel

/-- "Classifying traffic": a CMD that hits a report role is relayed untouched to the Field Port. -/
theorem test_relay :
    (after (.relay .control (cmd 4 0)) demo).traffic.field.sending.map Sending.tel = some (cmd 4 0) := by decide +kernel

/-- R9, R174: a broadcast TIME-SET is relayed and taken, and not answered. -/
theorem test_broadcast :
    let u := after (.broadcast .control (msg 255 2 5 10 0 0 0 123 0)) demo
    (u.time, said u, u.traffic.field.sending.isSome) = (123, none, true) := by decide +kernel

/-- R8: an MRQ at the Field Port is answered there with status 6. -/
theorem test_refused_port :
    (after (.refusedPort (mrq 1)) demo).traffic.field.sending.map (fun x => (x.tel.kind, x.tel.qual, x.tel.dest)) =
      some (6, 6, 2) := by decide +kernel

/-- 7.5, first row: GATE-SET 80 in LOW over a Wet head is clamped to 30 by the table. -/
theorem test_gate_set_clamped :
    let s := demoWith fun x => { x with est := { x.est with band := .low }, column := { x.column with charges := [charge 0 .survey 900 .wet] } }
    let u := after (.gateSet (cmd 0 80)) s
    (said u, queued u) = (some (3, 3, 2, 30), [(gate, .nonSafe, 30)]) := by decide +kernel

/-- 7.5, third row: GATE-SET 150 is clamped to 100 with no reason. -/
theorem test_gate_set_above_100 :
    let u := after (.gateSet (cmd 0 150)) demo
    (said u, queued u) = (some (3, 3, 0, 100), [(gate, .nonSafe, 100)]) := by decide +kernel

/-- 7.5, seventh row: SIGNAL-SET in HIGH is held for the table, though the breaker is UNKNOWN too. -/
theorem test_signal_set_held :
    let s := demoWith fun x => { x with est := { x.est with band := .high }, tips := Trio.all clearedTip }
    let u := after (.signalSet (cmd 1 1)) s
    (said u, queued u, u.traffic.pool.map HeldEntry.timer) = (some (3, 2, 2, 0), [], [1200]) := by decide +kernel

/-- 7.5, tenth row: BREAKER-SET of a TRIPPED pass is refused for the pass state. -/
theorem test_breaker_set_refused :
    let u := after (.breakerSet (cmd 2 1)) (demoIn .tripped)
    (said u, queued u) = (some (3, 1, 1, 0), []) := by decide +kernel

/-- 4.9, nominal evaluation. -/
theorem test_level :
    let e := ((after (.level (rpt 7 25610)) demo).pass 0).est
    (e.h, e.hc, e.hs, e.band, e.sample.map Sample.distance, e.causes.code, e.life) =
      (452, 432, 459, .normal, some 2561, 1, some 300) := by decide +kernel

/-- 3.10, event 3: 2955 Wet with share 7 gives 2748 of fines and 207 of oversize. -/
theorem test_tip :
    let c := ((after (.tip (rpt 8 2955 2 7)) demo).pass 0).column
    (c.charges.getLast?.map Charge.remaining, c.accums.at0, c.tipped, c.counter) =
      (some 2748, { tonnage := 207, wetness := .wet }, 2955, 5) := by decide +kernel

/-- 3.10, event 8: 4000 drawn leaves 48, which is merged into the charge above. -/
theorem test_draw_merges :
    let charges := [charge 1 (.tip 0) 1300 .dry, charge 2 (.tip 1) 2748 .wet, { charge 3 (.grizzly 0) 400 .dry with oversize := true }, charge 4 (.tip 2) 1900 .dry]
    let r := Column.draw 50 1620 4000 { clearedColumn with charges := charges, counter := 5, drawn := 6500 }
    (r.1.charges, r.1.drawn, r.2) =
      ([{ charge 3 (.grizzly 0) 448 .wet with oversize := true, merge := some { count := 1, latest := 1620 } }, charge 4 (.tip 2) 1900 .dry],
       10500, (false, false)) := by decide +kernel

/-- 3.10, event 9: what the column cannot give is Shortfall, and Underflow is handed. -/
theorem test_draw_shortfall :
    let c := { clearedColumn with charges := [charge 3 (.grizzly 0) 448 .wet, charge 4 (.tip 2) 1900 .dry], surveyed := true }
    let x := (after (.draw (rpt 5 3000)) (demoWith fun x => { x with column := c })).pass 0
    (x.column.charges, x.column.shortfall, x.est.causes.u, x.mode) = ([], 652, true, .alert) := by decide +kernel

/-- 3.11, event 2: cleared oversize merges into a full column's top charge of 60000 and all goes to Spill. -/
theorem test_grizzly_clear :
    let top := { charge 811 (.tip 1) 60000 .wet with merge := some { count := 1, latest := 1000 } }
    let c := { clearedColumn with
      charges := List.replicate 47 (charge 764 (.tip 0) 1500 .dry) ++ [top], spill := 400
      accums := Trio.all { tonnage := 300, wetness := .wet } }
    let d := ((after (.grizzlyClear (rpt 11 0)) (demoWith fun x => { x with column := c })).pass 0).column
    (d.charges.getLast?.map (fun x => (x.remaining, x.oversize, x.merge.map MergeRecord.count)), d.spill, d.accums.at0.tonnage) =
      (some (60000, true, some 2), 700, 0) := by decide +kernel

/-- 10.11, event 3 in small: Slurry over a gate confirmed at 35 trips the pass with cause MUD-RUSH. -/
theorem test_chute_moisture :
    let s := demoWith fun x => { x with chutes := Duo.all { gate := some 35, wagon := .present, moisture := none } }
    let x := (after (.chuteMoisture (rpt 6 0 3)) s).pass 0
    (x.mode, x.alarm.primary, x.column.charges.head?.map Charge.wetness) = (.tripped, some .mudRush, some .slurry) := by
  decide +kernel

/-- "Classifying traffic", last row: 61 confirms the ISSUED open of 60, and the relay is annotated with code 2. -/
theorem test_gate_position :
    let s := { demo with traffic := { demo.traffic with actions := [issued gate .nonSafe 60], history := Quad.all (Duo.all { reference := .opened, lastIssued := .opening }) } }
    let u := after (.gatePosition (rpt 3 61)) s
    (queued u, (u.pass 0).chutes.at0.gate, said u) = ([], some 61, some (2, 0, 2, 61)) := by decide +kernel

/-- R99: an opening with the movement reference CLOSED and no ISSUED open trips the pass. -/
theorem test_gate_moved :
    let x := (after (.gatePosition (rpt 3 4)) demo).pass 0
    (x.mode, x.alarm.primary) = (.tripped, some .gateMoved) := by decide +kernel

/-- 6.9, event 7: the wagon leaves while the gate stands at 79, so a close is originated and FORCED raised, detail 3. -/
theorem test_wagon :
    let s := demoWith fun x => { x with chutes := Duo.all { gate := some 79, wagon := .present, moisture := some .wet } }
    let u := after (.wagon (rpt 4 0)) (withQueues [] [] [] s)
    (queued u, noticed u) = ([(gate, .safe, 0)], [(.forced, 3)]) := by decide +kernel

/-- R84: ON over a WORKING breaker trips the pass with cause BREAKER-UNDER-PERMIT. -/
theorem test_signal_state :
    let s := demoWith fun x => { x with tips := Trio.all { signal := .isOff, breaker := .working, standing := .below } }
    let x := (after (.signalState (rpt 9 1)) s).pass 0
    (x.mode, x.alarm.primary, x.tips.at0.signal) = (.tripped, some .breakerUnderPermit, .isOn) := by decide +kernel

/-- R142: FAULT against an ISSUED start fails it: ACTION-FAIL with detail 50, a stop, and ALERT. -/
theorem test_breaker_fault :
    let u := after (.breakerState (rpt 10 2)) (withQueues [] [] [] (withActions [issued breaker .nonSafe 1] demo))
    (queued u, noticed u, (u.pass 0).mode) = ([(breaker, .safe, 0)], [(.actionFail, 50), (.alert, 7)], .alert) := by
  decide +kernel

/-- 6.9, event 10: STOP-DRAW fills the slot and raises SLOT with detail 11. -/
theorem test_notice_post :
    let u := after (.noticePost (rpt 12 1)) (withQueues [] [] [] demo)
    ((u.pass 0).slot.map SlotNotice.kind, noticed u) = (some .stopDraw, [(.slot, 11)]) := by decide +kernel

/-- 6.9, event 13: the slot empties, SLOT with detail 21, and the held command is released, clamped by the Wet limit. -/
theorem test_notice_taken :
    let s := demoWith fun x => { x with
      slot := some { kind := .stopDraw, station := 61, posted := 0 }
      column := { x.column with charges := [charge 0 .survey 900 .wet] } }
    let u := after (.noticeTaken (rpt 13 0)) (withQueues [] [] [] (withPool [held gate 60] s))
    ((u.pass 0).slot, noticed u, queued u) = (none, [(.slot, 21)], [(gate, .nonSafe, 50)])
      ∧ u.traffic.ctl.port.queue.head?.map (fun q => (q.tel.qual, q.tel.ann, q.tel.value)) = some (4, 7, 50) := by
  decide +kernel

/-- R154: line silence trips the pass and orders its actuators safe. -/
theorem test_line_silence :
    let u := after (.lineSilenceExpiry []) { demo with silence := some 0 }
    ((u.pass 0).mode, (u.pass 0).alarm.primary, queued u) =
      (.tripped, some .lineSilence, [(signal, .safe, 0), (gate, .safe, 0), (breaker, .safe, 0)]) := by decide +kernel

/-- R61, R63: without a fresh sample the column height alone is the estimate. -/
theorem test_sample_stale :
    let sm : Sample := { distance := 2561, quality := .good, inexact := false, fresh := true }
    let s := demoWith fun x => { x with est := { x.est with sample := some sm, life := some 0 } }
    let e := ((after (.sampleStale 0) s).pass 0).est
    (e.sample.map Sample.fresh, e.life, e.h) = (some false, none, 432) := by decide +kernel

/-- 8.8, event 8: the held command leaves, answered EXPIRED with its last reason. -/
theorem test_hold_expiry :
    let u := after (.holdExpiry breaker) (withPool [{ held breaker 1 with reason := .signal }] demo)
    (u.traffic.pool, said u) = ([], some (3, 6, 5, 0)) := by decide +kernel

/-- 9.9, event 5: the failed open is removed, the open behind it cancelled, a close issued, and the pass enters ALERT. -/
theorem test_deadline_expiry :
    let u := after (.deadlineExpiry gate) (withQueues [] [] [] (withActions [issued gate .nonSafe 50, waiting gate 50] demo))
    (queued u, noticed u, (u.pass 0).mode) = ([(gate, .safe, 0)], [(.actionFail, 10), (.alert, 7)], .alert)
      ∧ u.traffic.ctl.port.queue.map (fun q => (q.tel.dest, q.tel.qual, q.tel.ann)) = [(3, 5, 12)] := by decide +kernel

/-- R169: a request code outside 1 to 11 is answered UNKNOWN. -/
theorem test_unknown_request : said (after (.unknownRequest (mrq 12)) demo) = some (6, 5, 0, 0) := by decide +kernel

/-- "A confirm from the wrong station", step 2: item 35 reads 0. -/
theorem test_read_item : said (after (.readItem (mrq 1 0 0 35)) demo) = some (6, 0, 0, 0) := by decide +kernel

/-- R171: an unwritten field of a Point Table entry reads as -1. -/
theorem test_table_read : said (after (.tableRead (mrq 1 1 1 1 127)) demo) = some (6, 0, 0, -1) := by decide +kernel

/-- R171: an Interlock Table cell takes 201 as REFUSE. -/
theorem test_write_entry :
    let u := after (.writeEntry (mrq 2 32 201 5 1)) (demoIn .isolated)
    (said u, (u.tables.interlock.get 0).signalOn.alert) = (some (6, 0, 0, 0), .refuse) := by decide +kernel

/-- "Loading entries": an entry with no Object is not made valid for a chute role. -/
theorem test_write_valid :
    let e := { blankPoint with station := some 10, point := some 20, role := some .draw, pass := some 0 }
    let s := { demoIn .isolated with tables := { tables with points := tables.points.set 20 e } }
    said (after (.writeValid (mrq 2 1 1 0 20)) s) = some (6, 2, 0, 0) := by decide +kernel

/-- "Loading entries": a valid entry's role may not clash with that of another. -/
theorem test_write_point_field :
    let u := after (.writePointField (mrq 2 1 5 3 5)) (demoIn .isolated)
    (said u, (u.tables.points.get 5).role) = (some (6, 7, 0, 0), some .draw) := by decide +kernel

/-- R161: an UNCONFIGURED pass is configured into ISOLATED. -/
theorem test_write_configured :
    let u := after (.writeConfigured (mrq 2 17 1)) demo
    ((u.pass 1).mode, u.tables.marks.get 1) = (.isolated, true) := by decide +kernel

/-- R77: a write of L sets an ISOLATED pass's figures to 0. -/
theorem test_write_l :
    let u := after (.writeL (mrq 2 16 2000 1)) (demoIn .isolated)
    ((u.params 0).len, (u.pass 0).est.h, (u.pass 0).est.band) = (2000, 0, .empty) := by decide +kernel

/-- R87: an accumulator at the written limit stands FULL. -/
theorem test_write_grizzly_limit :
    let s := demoWith fun x => { x with mode := .isolated, column := { x.column with accums := Trio.all { tonnage := 300, wetness := .dry } } }
    ((after (.writeGrizzlyLimit (mrq 2 64 300)) s).pass 0).tips.at0.standing = .full := by decide +kernel

/-- R16: a line-silence time of 0 stops the timer. -/
theorem test_write_line_silence_time :
    (after (.writeLineSilenceTime (mrq 2 2 0 2)) (demoIn .isolated)).silence = none := by decide +kernel

/-- "A confirm from the wrong station", step 1. -/
theorem test_isolate_request :
    let u := after (.isolateRequest (mrq 3 0)) demo
    (said u, u.pendingIsolation) = (some (6, 0, 0, 0), some { pass := 0, station := 2 }) := by decide +kernel

/-- "A confirm from the wrong station", step 4. -/
theorem test_isolate_confirm :
    let u := after (.isolateConfirm (mrq 4 0)) { demo with pendingIsolation := some { pass := 0, station := 3 } }
    (said u, u.pendingIsolation, u.bar) = (some (6, 3, 0, 0), none, true) := by decide +kernel

/-- R160: a RESTORE of an ISOLATED pass clears its mark. -/
theorem test_restore :
    let u := after (.restore (mrq 5 0)) { demoIn .isolated with tables := { tables with marks := tables.marks.set 0 true } }
    ((u.pass 0).mode, u.tables.marks.get 0) = (.running, false) := by decide +kernel

/-- R157: an ACKNOWLEDGE of a pass that is not in ALERT is answered NOT-ALERT. -/
theorem test_acknowledge : said (after (.acknowledge (mrq 6 0)) demo) = some (6, 8, 0, 0) := by decide +kernel

/-- 10.11, event 5: a pass with a safe command still ISSUED is not at rest. -/
theorem test_pass_reset :
    said (after (.passReset (mrq 7 0)) (withActions [issued breaker .safe 0] (demoIn .tripped))) = some (6, 4, 0, 0) := by
  decide +kernel

/-- 3.10, event 1, for the demonstration pass. -/
theorem test_survey_load :
    let c := ((after (.surveyLoad (mrq 8 0 4200 1)) (demoWith fun x => { x with column := clearedColumn })).pass 0).column
    (c.charges.map (fun x => (x.number, x.remaining, x.wetness)), c.counter, c.base, c.surveyed) =
      ([(0, 4200, .damp)], 1, 4200, true) := by decide +kernel

/-- R168: target 4 clears the overrun flags. -/
theorem test_clear_flags :
    let s := { demo with traffic := { demo.traffic with field := { clearedPort with overrun := true } } }
    (after (.clearFlags (mrq 9 4)) s).traffic.field.overrun = false := by decide +kernel

/-- R174: TIME-SET takes its Value as an unsigned pattern. -/
theorem test_time_set : (after (.timeSet (mrq 10 0 (-1))) demo).time = 4294967295 := by decide +kernel

/-- R17: the DONE of a DEVICE-RESET ends in the reset; until then the ports discard what they receive. -/
theorem test_device_reset :
    let u := after (.deviceReset (mrq 11)) demo
    u.resetPending = true ∧ u.traffic.ctl.port.sending.map Sending.endsInReset = some true
      ∧ after (.gateSet (cmd 0 60)) u = u := by decide +kernel

/-- R7: a telegram to the own station that is no MRQ goes no further. -/
theorem test_own_station_other_kind : after (.ownStationOtherKind .control (msg 1 2 1 0 0 0 0 0 0)) demo = demo := by
  decide +kernel

/-- R17: while a DEVICE-RESET is pending an MRQ is not answered. -/
theorem test_discard_while_reset_pending :
    said (after (.discardWhileResetPending .control (mrq 1)) { demo with resetPending := true }) = none := by decide +kernel

/-- A step takes the command at the front of the queue. -/
theorem test_step_takes_the_front :
    (match step { demo with pending := [.timeSet (mrq 10 0 9), .powerOn] } with
      | .next u => (u.time, u.pending)
      | .fault _ | .refused _ => (0, [])) = (9, [.powerOn]) := by decide +kernel

/-- R174: with nothing waiting and nothing run out, the time base counts. -/
theorem test_step_idles : (match step demo with
      | .next u => (u.time, u.silence)
      | .fault _ | .refused _ => (0, none)) = (2001, some 99) := by decide +kernel

/-- No row of the table has bits. -/
theorem test_no_word_spells_a_command : decodeTableWord 8 0 = none ∧ demo.withFetchWord 8 0 = demo := ⟨rfl, rfl⟩

/-! ### Well-formed commands: one that passes and one that fails each check -/

/-- R5, R6, R9: the checks on a telegram alone. -/
theorem test_wellFormed_ports :
    (Instr.powerOn).wellFormed = true ∧ (Instr.lineFree .field).wellFormed = true
      ∧ (Instr.lineCheckFail .control garbled).wellFormed = true ∧ (Instr.lineCheckFail .control (cmd 0 60)).wellFormed = false
      ∧ (Instr.invalidAddress .field (msg 254 2 1 0 0 0 0 0 0)).wellFormed = true
      ∧ (Instr.invalidAddress .field (cmd 0 60)).wellFormed = false
      ∧ (Instr.relay .field (rpt 20 0)).wellFormed = true ∧ (Instr.relay .field garbled).wellFormed = false
      ∧ (Instr.broadcast .field (msg 255 2 1 0 0 0 0 0 0)).wellFormed = true ∧ (Instr.broadcast .field (cmd 0 0)).wellFormed = false
      ∧ (Instr.refusedPort (mrq 1)).wellFormed = true ∧ (Instr.refusedPort (cmd 0 0)).wellFormed = false
      ∧ (Instr.ownStationOtherKind .field (cmd 0 0)).wellFormed = true
      ∧ (Instr.ownStationOtherKind .field (mrq 1)).wellFormed = false
      ∧ (Instr.discardWhileResetPending .field (mrq 1)).wellFormed = true
      ∧ (Instr.discardWhileResetPending .field garbled).wellFormed = false := by decide +kernel

/-- R18, R26, R28: a command row takes a CMD and a report row an RPT, each of a point 0 to 63; R154: no pass twice. -/
theorem test_wellFormed_points :
    (Instr.gateSet (cmd 63 1)).wellFormed = true ∧ (Instr.gateSet (cmd 64 1)).wellFormed = false
      ∧ (Instr.signalSet (rpt 1 1)).wellFormed = false ∧ (Instr.breakerSet (cmd 2 1)).wellFormed = true
      ∧ (Instr.level (rpt 7 0)).wellFormed = true ∧ (Instr.level (cmd 7 0)).wellFormed = false
      ∧ (Instr.noticeTaken (rpt 64 0)).wellFormed = false
      ∧ (Instr.lineSilenceExpiry [3, 1]).wellFormed = true ∧ (Instr.lineSilenceExpiry [3, 3]).wellFormed = false := by
  decide +kernel

/-- R169, R171: a request row takes the request whose code and addressing it stands for. -/
theorem test_wellFormed_requests :
    (Instr.unknownRequest (mrq 0)).wellFormed = true ∧ (Instr.unknownRequest (mrq 1)).wellFormed = false
      ∧ (Instr.readItem (mrq 1 0 2)).wellFormed = true ∧ (Instr.readItem (mrq 1 0 1)).wellFormed = false
      ∧ (Instr.tableRead (mrq 1 9 1)).wellFormed = true ∧ (Instr.tableRead (mrq 1 9 0)).wellFormed = false
      ∧ (Instr.writeEntry (mrq 2 16 0 21)).wellFormed = true ∧ (Instr.writeEntry (mrq 2 16 0 0)).wellFormed = false
      ∧ (Instr.writeValid (mrq 2 1 0 0 127)).wellFormed = true ∧ (Instr.writeValid (mrq 2 1 0 1 127)).wellFormed = false
      ∧ (Instr.writePointField (mrq 2 1 0 10 0)).wellFormed = true
      ∧ (Instr.writePointField (mrq 2 1 0 11 0)).wellFormed = false
      ∧ (Instr.writeConfigured (mrq 2 19 0 0)).wellFormed = true ∧ (Instr.writeConfigured (mrq 2 20 0 0)).wellFormed = false
      ∧ (Instr.writeL (mrq 2 16 0 1)).wellFormed = true ∧ (Instr.writeL (mrq 2 16 0 2)).wellFormed = false
      ∧ (Instr.writeGrizzlyLimit (mrq 2 67 0 2)).wellFormed = true
      ∧ (Instr.writeGrizzlyLimit (mrq 2 67 0 3)).wellFormed = false
      ∧ (Instr.writeLineSilenceTime (mrq 2 2 0 2)).wellFormed = true
      ∧ (Instr.writeLineSilenceTime (mrq 2 2 0 1)).wellFormed = false
      ∧ (Instr.isolateRequest (mrq 4)).wellFormed = false ∧ (Instr.isolateConfirm (mrq 4)).wellFormed = true
      ∧ (Instr.restore (mrq 6)).wellFormed = false ∧ (Instr.acknowledge (mrq 6)).wellFormed = true
      ∧ (Instr.passReset (mrq 8)).wellFormed = false ∧ (Instr.surveyLoad (mrq 8)).wellFormed = true
      ∧ (Instr.clearFlags (mrq 10)).wellFormed = false ∧ (Instr.deviceReset (mrq 11)).wellFormed = true
      ∧ (Instr.timeSet (msg 255 2 5 10 0 0 0 9 0)).wellFormed = true
      ∧ (Instr.timeSet (msg 255 2 1 10 0 0 0 9 0)).wellFormed = false := by decide +kernel

/-! ### Witnesses for the statements' hypotheses -/

/-- The hit of point `i` of station 10: role code `i + 1`, pass 0, object 0. -/
def hit (i : Nat) : Hit :=
  { entry := entries.getD i blankPoint, role := (Role.ofCode (i + 1)).getD .level, pass := 0, object := 0 }

/-- The demonstration's Point Table is sound: its valid entries are the first fourteen. -/
theorem points_sound : PointsSound tables := by
  have below : ∀ i : Fin 128, (tables.points.get i).valid = true → i.val < 14 := by decide +kernel
  have apart : ∀ i j : Fin 14, i ≠ j →
      pointsClash (tables.points.get (i.castLE (by decide))) (tables.points.get (j.castLE (by decide))) = false := by
    decide +kernel
  constructor
  · have : ∀ i : Fin 128, (tables.points.get i).valid = true → isComplete (tables.points.get i) = true := by decide +kernel
    exact this
  · intro i j hij hi hj
    exact apart ⟨i.val, below i hi⟩ ⟨j.val, below j hj⟩ fun h => hij (Fin.ext (Fin.mk.inj h))

/-- A state with the demonstration's tables, no held command and no action is sound behind its queues. -/
theorem commands_sound_empty (s : State) (ht : s.tables = tables) (ha : s.traffic.actions = []) (hp : s.traffic.pool = []) :
    CommandsSound s := by
  refine ⟨ht ▸ points_sound, ?_, ?_, ?_⟩
  · simp [EntriesBacked, ha, hp]
  · simp [ActionsBounded, lineOf, ha, Config.actionCapacity]
  · intro a
    simp [lineOf, ha]

/-- The same with one ISSUED entry. -/
theorem commands_sound_one (s : State) (e : ActionEntry) (ht : s.tables = tables) (ha : s.traffic.actions = [e])
    (hp : s.traffic.pool = []) (hi : e.isIssuedFor e.actuator = true) (hc : hasCommandPoint tables e.actuator = true)
    (hl : e.direction = .nonSafe → (s.pass e.actuator.pass).mode.isLive = true) : CommandsSound s := by
  have hl' : ∀ a, (lineOf s.traffic a = [] ∨ lineOf s.traffic a = [e] ∧ e.actuator = a) := by
    intro a
    by_cases h : e.actuator = a <;> simp [lineOf, ha, h]
  refine ⟨ht ▸ points_sound, ?_, ?_, ?_⟩
  · simp only [EntriesBacked, ha, hp, ht]
    refine ⟨fun x hx => ?_, by simp⟩
    obtain rfl := List.mem_singleton.mp hx
    exact ⟨hc, hl⟩
  · refine ⟨by simp [ha, Config.actionCapacity], fun a => ?_⟩
    refine ⟨?_, by rw [ha]; exact (List.length_filter_le _ _).trans (by simp)⟩
    rcases hl' a with h | ⟨h, _⟩ <;> simp [h, Config.lineCapacity]
  · intro a
    rcases hl' a with h | ⟨h, rfl⟩ <;> rw [h]
    · trivial
    · exact ⟨hi, by simp⟩

def isNext : Result → Bool
  | .next _ => true
  | .fault _ | .refused _ => false

theorem exec_after (c : Instr) (s : State) (h : isNext (exec c s) = true) : exec c s = .next (after c s) := by
  unfold after
  revert h
  cases exec c s <;> simp [isNext]

theorem witness_StepRunsFront : ({ demo with pending := [.powerOn] } : State).pending = .powerOn :: [] := rfl

theorem witness_IdleLetsTimePass :
    demo.pending = [] ∧ dueExpiries demo = [] ∧ dueExpiries { demo with silence := some 0 } ≠ [] :=
  ⟨rfl, by decide +kernel, by simp [dueExpiries]⟩

theorem witness_DeliveredPartIsStarted : State.reset.tables = factoryTables := rfl

theorem witness_ControlPortSorts :
    PointsSound demo.tables ∧ demo.resetPending = false
      ∧ (∀ t ∈ [msg 255 2 1 0 0 0 0 0 0, mrq 1, msg 1 2 1 0 0 0 0 0 0, rpt 3 0, cmd 63 0, cmd 3 0, cmd 0 60, cmd 1 1, cmd 2 1],
          checkHolds t = true ∧ addressValid t = true)
      ∧ (msg 255 2 1 0 0 0 0 0 0).dest = 255
      ∧ (mrq 1).dest = demo.tables.device.ownStation ∧ (mrq 1).kind = 5 ∧ (msg 1 2 1 0 0 0 0 0 0).kind ≠ 5
      ∧ (rpt 3 0).dest ≠ demo.tables.device.ownStation ∧ (rpt 3 0).kind ≠ 1
      ∧ (cmd 63 0).kind = 1
      ∧ (∀ i : Fin 128, (demo.tables.points.get i).valid = true →
          ¬((demo.tables.points.get i).station = some (cmd 63 0).dest ∧ (demo.tables.points.get i).point = some (cmd 63 0).point))
      ∧ (∀ i : Fin 4, (demo.tables.points.get (i.castLE (by decide))).valid = true
          ∧ (demo.tables.points.get (i.castLE (by decide))).station = some 10
          ∧ (demo.tables.points.get (i.castLE (by decide))).point = some (BitVec.ofNat 8 i.val)
          ∧ (demo.tables.points.get (i.castLE (by decide))).role = Role.ofCode (i.val + 1)
          ∧ (demo.tables.points.get (i.castLE (by decide))).pass = some 0)
      ∧ Role.gatePosition.isCommand = false
      ∧ (demo.pass 0).mode ≠ .unconfigured ∧ ((demoIn .unconfigured).pass 0).mode = .unconfigured :=
  ⟨points_sound, by decide +kernel⟩

theorem witness_FieldPortSorts :
    PointsSound demo.tables ∧ demo.resetPending = false
      ∧ (∀ t ∈ [msg 255 2 1 0 0 0 0 0 0, mrq 1, msg 1 2 1 0 0 0 0 0 0, cmd 3 0, rpt 63 0, rpt 0 0, rpt 3 0],
          checkHolds t = true ∧ addressValid t = true)
      ∧ (mrq 1).dest = demo.tables.device.ownStation ∧ (rpt 3 0).dest ≠ demo.tables.device.ownStation ∧ (rpt 3 0).dest ≠ 255
      ∧ (cmd 3 0).kind ≠ 2 ∧ (rpt 63 0).kind = 2
      ∧ (∀ i : Fin 128, (demo.tables.points.get i).valid = true →
          ¬((demo.tables.points.get i).station = some (rpt 63 0).src ∧ (demo.tables.points.get i).point = some (rpt 63 0).point))
      ∧ (∀ i : Fin 4, (demo.tables.points.get (i.castLE (by decide))).station = some (rpt 0 0).src
          ∧ (demo.tables.points.get (i.castLE (by decide))).role = Role.ofCode (i.val + 1))
      ∧ Role.gateSet.isCommand = true ∧ Role.gatePosition.isCommand = false
      ∧ (demo.pass 0).mode ≠ .unconfigured ∧ ((demoIn .unconfigured).pass 0).mode = .unconfigured :=
  ⟨points_sound, by decide +kernel⟩

theorem witness_DiscardsChangeNothing :
    checkHolds garbled = false ∧ checkHolds (mrq 1) = true ∧ ({ demo with resetPending := true } : State).resetPending = true
      ∧ arrival (.gateSet garbled) = some (.control, garbled) := by decide +kernel

theorem witness_InvalidAddressIsDiscarded :
    demo.resetPending = false
      ∧ ∀ t ∈ [msg 0 2 1 0 0 0 0 0 0, msg 254 2 1 0 0 0 0 0 0, msg 10 0 1 0 0 0 0 0 0, msg 10 254 1 0 0 0 0 0 0, msg 10 255 1 0 0 0 0 0 0],
          checkHolds t = true ∧ (t.dest = 0 ∨ t.dest = 254 ∨ t.src = 0 ∨ t.src = 254 ∨ t.src = 255) := by decide +kernel

theorem witness_PortsAnswerAndRelay :
    fate .control (msg 1 2 1 0 0 0 0 0 0) demo = .ownOther ∧ fate .field (msg 1 2 1 0 0 0 0 0 0) demo = .ownOther
      ∧ fate .field (mrq 1) demo = .refusedPort ∧ fate .control (cmd 3 0) demo = .relay
      ∧ fate .field (rpt 0 0) demo = .relay := by decide +kernel

theorem witness_BroadcastIsRelayed :
    demo.resetPending = false
      ∧ ∀ t ∈ [msg 255 2 5 10 0 0 0 9 0, msg 255 2 5 9 0 0 0 9 0, msg 255 1 1 63 0 0 0 9 0],
          checkHolds t = true ∧ addressValid t = true ∧ t.dest = 255 := by decide +kernel

/-- 48 relayed commands, the last of them a relayed report. -/
def fullQueue (last : Queued) : List Queued := List.replicate 47 (relayed (cmd 20 0)) ++ [last]

/-- 48 action telegrams, the last another telegram. -/
def fullOfActions (last : Queued) : List Queued :=
  List.replicate 47 { tel := cmd 0 0, cls := .action gate .safe } ++ [last]

def highNotice : NoticeEntry := { source := .pass 0, cls := .trip, priority := .high, count := 1, detail := 12 }
def lowNotice : NoticeEntry := { source := .pass 0, cls := .slot, priority := .low, count := 255, detail := 11 }

theorem witness_PlacingInAQueue :
    (∀ n ∈ [0, 47], (List.replicate n (relayed (cmd 20 0))).length < 48)
      ∧ (withQueues [] [] [] demo).traffic.field.sending = some busyLine
      ∧ (withQueues [] [] [] demo).traffic.ctl.port.sending = some busyLine
      ∧ demo.traffic.field.sending = none ∧ demo.traffic.field.queue = [] ∧ demo.traffic.ctl.port.sending = none
      ∧ demo.traffic.ctl.port.queue = [] ∧ demo.traffic.ctl.notices = []
      ∧ (relayed (cmd 20 0)).isRelayed = true ∧ ({ tel := cmd 9 9, cls := .verdict } : Queued).isAnswer = true
      ∧ (fullQueue (relayed (rpt 20 1))).length = 48 ∧ (rpt 20 2).kind = 2
      ∧ (sameReport (relayed (rpt 20 2)) (relayed (rpt 20 1)) = true
          ∧ ∀ y ∈ List.replicate 47 (relayed (cmd 20 0)), sameReport (relayed (rpt 20 2)) y = false)
      ∧ (cmd 20 0).kind ≠ 2 ∧ (∀ y ∈ fullQueue (relayed (rpt 20 1)), sameReport (relayed (rpt 21 2)) y = false)
      ∧ (∀ q ∈ [({ tel := cmd 0 0, cls := .verdict } : Queued), { tel := cmd 0 0, cls := .action gate .safe }], q.cls ≠ .relayed)
      ∧ (fullQueue (relayed (rpt 20 1))) = [] ++ relayed (cmd 20 0) :: (List.replicate 46 (relayed (cmd 20 0)) ++ [relayed (rpt 20 1)])
      ∧ (∀ last ∈ [({ tel := cmd 0 0, cls := .verdict } : Queued), { tel := cmd 0 0, cls := .reply false }, { tel := cmd 0 0, cls := .refusedPort }],
          (fullOfActions last).length = 48 ∧ (∀ y ∈ fullOfActions last, y.isRelayed = false)
            ∧ (last.isVerdict = true ∧ last.isReply = false ∧ last.isRefusedPort = false
                ∨ last.isReply = true ∧ (∀ y ∈ fullOfActions last, y.isVerdict = false)
                ∨ last.isRefusedPort = true))
      ∧ (∀ y ∈ List.replicate 47 ({ tel := cmd 0 0, cls := .action gate .safe } : Queued),
          y.isVerdict = false ∧ y.isReply = false ∧ y.isRefusedPort = false)
      ∧ (enqueue (relayed (cmd 20 0)) (fullQueue (relayed (cmd 20 1)))).2 = true
      ∧ (enqueue (relayed (cmd 20 0)) (List.replicate 47 (relayed (cmd 20 0)))).2 = false
      ∧ (tables.notices.get .slot).enabled = true
      ∧ ({ tables.notices with slot := ⟨false, .low⟩ }.get .slot).enabled = false
      ∧ (∀ e ∈ [lowNotice, { lowNotice with count := 1 }], e.source = .pass 0 ∧ e.cls = .slot)
      ∧ ∀ x ∈ [highNotice], ¬(x.source = .pass 0 ∧ x.cls = .slot) := by decide +kernel

theorem witness_ControlArbiterChooses :
    busyLine.endsInReset = false ∧ (withQueues [] [] [] demo).traffic.ctl.port.sending = some busyLine
      ∧ (relayed (cmd 20 0)).isAnswer = false ∧ (relayed (cmd 20 0)).isRelayed = true
      ∧ ({ tel := cmd 9 9, cls := .reply false } : Queued).isAnswer = true
      ∧ highNotice.priority = .high ∧ lowNotice.priority = .low
      ∧ (withQueues [] [] [lowNotice] demo).traffic.ctl.notices = lowNotice :: []
      ∧ (withQueues [] [] [] demo).traffic.ctl.port.queue = [] ∧ (withQueues [] [] [] demo).traffic.ctl.notices = [] := by
  decide +kernel

theorem witness_FieldArbiterChooses :
    (withQueues [] [] [] demo).traffic.field.sending = some busyLine ∧ (withQueues [] [] [] demo).traffic.field.queue = []
      ∧ (relayed (cmd 20 0)).isSafeAction = false
      ∧ ({ tel := cmd 0 0, cls := .action gate .nonSafe } : Queued).isSafeAction = false
      ∧ ({ tel := cmd 0 0, cls := .action gate .safe } : Queued).isSafeAction = true := by decide +kernel

/-- A DEVICE-RESET is pending, its DONE the oldest of 48 replies in a queue with no VRD and no relayed telegram. -/
def resetQueued : State :=
  let reply (b : Bool) : Queued := { tel := mrq 1, cls := .reply b }
  let s := withPool [held gate 60] (withQueues (reply true :: List.replicate 47 (reply false)) [] [] demo)
  { s with resetPending := true }

/-- The DONE of a DEVICE-RESET on the line; a timer's expiry that leaves the DONE where it is, and one whose VRD removes it
(R11). -/
theorem witness_StartUpClears :
    (after (.deviceReset (mrq 11)) demo).traffic.ctl.port.sending.map Sending.endsInReset = some true
      ∧ resetQueued.resetPending = true
      ∧ (let c : Instr := .holdExpiry signal
        let v := after c { resetQueued with resetPending := false }
        exec c { resetQueued with resetPending := false } = .next v ∧ ∃ q ∈ v.traffic.ctl.port.queue, q.endsInReset = true)
      ∧ let c : Instr := .holdExpiry gate
        let v := after c { resetQueued with resetPending := false }
        exec c { resetQueued with resetPending := false } = .next v
          ∧ (∀ q ∈ v.traffic.ctl.port.queue, ¬q.endsInReset = true) ∧ v.traffic.ctl.port.sending = some busyLine
          ∧ busyLine.endsInReset = false :=
  ⟨by decide +kernel, rfl, ⟨exec_after _ _ (by decide +kernel), by decide +kernel⟩,
    exec_after _ _ (by decide +kernel), by decide +kernel⟩

/-- R162, R176: after a device reset RESTART (detail 2) goes out first, the ALERT of the one pass that came back waits with
detail 13; of the delivered gates only that of pass 0 was issued a close. -/
theorem test_start_up_notices :
    let u := demo.startUp .commanded
    startActuators demo.tables = [signal, gate, breaker] ∧ (said u, noticed u) = (some (4, 4, 1, 2), [(.alert, 13)])
      ∧ (u.traffic.history.get 0).get 0 = { reference := .unset, lastIssued := .closing }
      ∧ (u.traffic.history.get 0).get 1 = { reference := .unset, lastIssued := .unset } := by decide +kernel

theorem witness_CommandsTouchTheirPass :
    fate .control (cmd 0 60) demo = .command gate ∧ fate .control (cmd 1 0) demo = .command signal
      ∧ fate .control (cmd 2 (-1)) (demoIn .tripped) = .command breaker := by decide +kernel

theorem witness_HeldCommandIsSuperseded :
    fate .control (cmd 0 55) (withPool [held breaker 1, held gate 70] demo) = .command gate
      ∧ PoolSound (withPool [held breaker 1, held gate 70] demo)
      ∧ held gate 70 ∈ (withPool [held breaker 1, held gate 70] demo).traffic.pool ∧ (held gate 70).actuator = gate := by
  refine ⟨by decide +kernel, ⟨by decide +kernel, by decide +kernel⟩, by decide +kernel, rfl⟩

/-- An ISSUED entry whose telegram is still QUEUED. -/
def unsent (a : Actuator) (d : Direction) (value : Nat) : ActionEntry :=
  { issued a d value with state := .issued 100 false (cmd 0 value) }

theorem witness_SafeCommandIsTaken :
    fate .control (cmd 0 0) demo = .command gate ∧ (cmd 0 0).value.toInt ≤ 0 ∧ (cmd 0 (-1)).value.toInt ≤ 0 ∧ CommandsSound demo
      ∧ CommandsSound (withActions [issued gate .nonSafe 60] demo) :=
  ⟨by decide +kernel, by decide +kernel, by decide +kernel, commands_sound_empty _ rfl rfl rfl,
    commands_sound_one _ (issued gate .nonSafe 60) rfl rfl rfl (by decide +kernel) (by decide +kernel) (by decide +kernel)⟩

/-- Safe commands over each line: with no ISSUED entry, in a queue of 31 and of 32 with an entry to remove; over a non-safe
one; over a safe one QUEUED and SENT. -/
theorem witness_SafeCommandIsTaken_lines :
    let lined (l : List ActionEntry) : Traffic := (withActions l demo).traffic
    commandPoint demo.view.tables gate = entries.head? ∧ (∀ e ∈ demo.traffic.pool, e.actuator ≠ gate)
      ∧ ([31, 32].map fun n =>
          let tr := lined (List.replicate n (waiting signal 1))
          (issuedEntry tr gate, tr.actions.find? fun e => decide (e.state = .waiting))) =
            [(none, some (waiting signal 1)), (none, some (waiting signal 1))]
      ∧ ([issued gate .nonSafe 60, unsent gate .safe 0, issued gate .safe 0].map fun e =>
          ((issuedEntry (lined [e, waiting gate 50]) gate).map fun x => (x.direction, x.state))) =
            [some (.nonSafe, .issued 100 true (cmd 0 60)), some (.safe, .issued 100 false (cmd 0 0)),
              some (.safe, .issued 100 true (cmd 0 0))] := by decide +kernel

/-- Pass 0 with no wagon at its chutes. -/
def noWagon : State := demoWith fun x => { x with chutes := Duo.all { gate := some 0, wagon := .absent, moisture := none } }

theorem witness_NonSafeCommandFollowsItsVerdict :
    let severity (s : State) (t : Telegram) := (arrivalVerdict s.view s.traffic gate t.value.toInt.toNat).severity
    let full := withPool (List.replicate 16 (held breaker 1)) noWagon
    let almost := withPool (List.replicate 15 (held breaker 1)) noWagon
    0 < (cmd 0 1).value.toInt
      ∧ fate .control (cmd 0 60) (demoIn .tripped) = .command gate ∧ severity (demoIn .tripped) (cmd 0 60) = .refuse
      ∧ fate .control (cmd 0 60) almost = .command gate ∧ severity almost (cmd 0 60) = .hold ∧ almost.traffic.pool.length < 16
      ∧ (∀ e ∈ almost.traffic.pool, e.actuator ≠ gate)
      ∧ fate .control (cmd 0 60) full = .command gate ∧ severity full (cmd 0 60) = .hold ∧ 16 ≤ full.traffic.pool.length
      ∧ (∀ e ∈ full.traffic.pool, e.actuator ≠ gate)
      ∧ severity demo (cmd 0 60) = .pass ∧ severity demo (cmd 0 150) = .clamp
      ∧ severity (withActions (List.replicate 4 (waiting gate 50)) demo) (cmd 0 60) = .pass
      ∧ 4 ≤ (lineOf (withActions (List.replicate 4 (waiting gate 50)) demo).traffic gate).length
      ∧ severity (withActions (List.replicate 32 (waiting signal 1)) demo) (cmd 0 60) = .pass
      ∧ lineOf (withActions (List.replicate 32 (waiting signal 1)) demo).traffic gate = []
      ∧ 32 ≤ (withActions (List.replicate 32 (waiting signal 1)) demo).traffic.actions.length
      ∧ lineOf (withActions (List.replicate 3 (waiting gate 50)) demo).traffic gate ≠ []
      ∧ (lineOf (withActions (List.replicate 3 (waiting gate 50)) demo).traffic gate).length < 4
      ∧ demo.traffic.actions.length < 32 ∧ lineOf demo.traffic gate = []
      ∧ commandPoint demo.tables gate = entries.head?
      ∧ (entries.head?.map fun cp => (cp.station, cp.point)) = some (some 10, some 0)
      ∧ (issued gate .safe 0).origin = .station { src := 2, tag := 70, point := 0 }
      ∧ ({ issued gate .safe 0 with origin := .originated 9 } : ActionEntry).origin = .originated 9 := by decide +kernel

/-- R118: a HOLD with hold time 0 is REFUSED (1) with the reason of the HOLD (WAGON, 3); with hold time 600 it is HELD (2). -/
theorem test_hold_time_0_refuses :
    let table := factoryInterlock
    let s := { noWagon with tables := { tables with interlock := Quad.all { table with gateOpen := { table.gateOpen with holdTime := 0 } } } }
    (∀ v ∈ [s.view, noWagon.view], (judge v s.traffic gate 60).severity = .hold) ∧ (holdTime s.view gate, holdTime noWagon.view gate) = (0, 600)
      ∧ [s, noWagon].map (fun v => said (after (.gateSet (cmd 0 60)) v)) = [some (3, 1, 3, 0), some (3, 2, 3, 0)] := by
  decide +kernel

theorem witness_VerdictIsTheMostSevere :
    let slurry := demoWith fun x => { x with column := { x.column with charges := [charge 0 .survey 900 .slurry] } }
    let bandOf (b : Band) := demoWith fun x => { x with est := { x.est with band := b } }
    ((demoIn .tripped).view.passes.get 0).mode.isLive = false
      ∧ interlockCell (bandOf .empty).view gate = some .refuse
      ∧ (interlockCell slurry.view gate = some .pass ∧ openingLimit slurry.view 0 = 0)
      ∧ (interlockCell (demoIn .alert).view gate = some .hold ∧ openingLimit (demoIn .alert).view 0 ≠ 0)
      ∧ (interlockCell noWagon.view gate ≠ some .hold ∧ ¬preconditionsMet noWagon.view noWagon.traffic gate)
      ∧ ¬preconditionsMet (withActions [issued breaker .nonSafe 1] demo).view (withActions [issued breaker .nonSafe 1] demo).traffic signal
      ∧ ¬preconditionsMet (withActions [issued signal .nonSafe 1] demo).view (withActions [issued signal .nonSafe 1] demo).traffic breaker
      ∧ (judge demo.view demo.traffic gate 100).severity = .pass ∧ (judge demo.view demo.traffic gate 101).severity = .clamp :=
  ⟨by decide +kernel, by decide +kernel, by decide +kernel, by decide +kernel,
    ⟨by decide +kernel, fun h => absurd h.1 (by decide +kernel)⟩, fun h => absurd h.2.1 (by decide +kernel),
    fun h => absurd h.2 (by decide +kernel), by decide +kernel, by decide +kernel⟩

theorem witness_InterlockReadings :
    let low := demoWith fun x => { x with est := { x.est with band := .low } }
    PointsSound demo.tables ∧ commandPoint demo.tables gate = entries.head? ∧ commandPoint demo.tables (.gate 0 1) = none
      ∧ (entries.head?.bind PointEntry.tolerance) = some 3 ∧ clearedColumn.charges = [] ∧ column.charges.head?.isSome = true
      ∧ interlockCell low.view gate = some (.clamp 30) ∧ (interlockCell demo.view gate = some .pass)
      ∧ (judge low.view low.traffic gate 31).severity = .clamp
      ∧ pass0.mode = .running ∧ ((demoIn .alert).pass 0).mode = .alert ∧ ((demoIn .tripped).pass 0).mode = .tripped
      ∧ ((demoIn .isolated).pass 0).mode = .isolated ∧ (demo.pass 3).mode = .unconfigured :=
  ⟨points_sound, by decide +kernel⟩

theorem witness_OnlyAllowedCommandsAreIssued :
    (let tr := demo.traffic.arrive demo.view gate (cmd 0 60)
      ∃ e ∈ tr.actions, e.direction = .nonSafe ∧ e.isIssuedFor e.actuator = true)
      ∧ (let tr := (withPool [held gate 60] demo).traffic.change demo.view 0 false
        ∃ e ∈ tr.actions, e.direction = .nonSafe ∧ e.isIssuedFor e.actuator = true)
      ∧ (let tr := (withActions [issued gate .safe 0, waiting gate 50] demo).traffic.confirm demo.view gate
        ∃ e ∈ tr.actions, e.direction = .nonSafe ∧ e.isIssuedFor e.actuator = true)
      ∧ let tr := (withActions [issued gate .nonSafe 60] demo).traffic.originate demo.view signal
        ∃ e ∈ tr.actions, e.direction = .nonSafe ∧ e.isIssuedFor e.actuator = true := by decide +kernel

/-- Pass 0 with its first gate confirmed at 60. -/
def openGate (f : Pass → Pass) : State :=
  demoWith fun x => f { x with chutes := Duo.all { gate := some 60, wagon := .present, moisture := some .damp } }

theorem lines_ordered_empty (tr : Traffic) (h : tr.actions = []) : LinesOrdered tr := fun a => by simp [lineOf, h]

/-- Held commands of each verdict, with room and without. -/
theorem witness_RoundKeepsWhatStaysHeld :
    let severity (s : State) (e : HeldEntry) := (judge s.view s.traffic e.actuator e.value.toInt.toNat).severity
    let crowd (a : Actuator) (n : Nat) : State := withActions (List.replicate n (waiting a 50)) demo
    [severity (demoIn .tripped) (held gate 60), severity noWagon (held gate 60), severity demo (held gate 100),
        severity demo (held gate 101), severity (crowd gate 4) (held gate 60), severity (crowd signal 32) (held gate 60)]
      = [.refuse, .hold, .pass, .clamp, .pass, .pass]
      ∧ [crowd gate 4, crowd gate 3, crowd signal 32, demo].map
          (fun s => ((lineOf s.traffic gate).length, s.traffic.actions.length)) = [(4, 4), (3, 3), (0, 32), (0, 0)]
      ∧ commandPoint demo.tables gate = entries.head? ∧ (3 : PassId) ≠ 0 := by decide +kernel

/-- The gate open above tolerance and the signal ON, in band FULL over a head of Slurry. -/
def pressed : State :=
  openGate fun x => { x with
    est := { x.est with band := .full }
    column := { x.column with charges := [charge 0 .survey 900 .slurry] }
    tips := Trio.all { signal := .isOn, breaker := .parked, standing := .below } }

def forcedNotice : NoticeEntry := { source := .pass 0, cls := .forced, priority := .high, count := 255, detail := 7 }

/-- Standing checks that find nothing, one gate of either reason, and two actuators whose raises make one notice: on a busy
line with and without an entry, on an idle one, and with the class disabled. -/
theorem witness_RoundKeepsWhatStaysHeld_standing :
    let forced (s : State) := forcedBy s.view s.traffic 0
    let ordered (s : State) := (forced s).foldl (fun x f => x.takeSafe s.view f.1 none noCarried) s.traffic
    let empty := openGate fun x => { x with est := { x.est with band := .empty } }
    (forced demo = [] ∧ forced empty = [(gate, .table)] ∧ forced pressed = [(gate, .wet), (signal, .table)]
        ∧ breaker ∉ (forced pressed).map Prod.fst)
      ∧ ([demoIn .tripped, demo].map fun s => (s.view.passes.get 0).mode.isLive) = [false, true]
      ∧ ((tables.notices.get .forced).enabled = true
          ∧ ({ tables.notices with forced := ⟨false, .low⟩ }.get .forced).enabled = false)
      ∧ (ordered pressed).ctl = clearedTraffic.ctl
      ∧ (ordered (withQueues [] [] [] pressed)).ctl.port.sending = some busyLine
      ∧ (ordered (withQueues [] [] [] pressed)).ctl.notices = []
      ∧ (ordered (withQueues [] [] [forcedNotice] pressed)).ctl.notices = [forcedNotice] := by decide +kernel

theorem witness_RoundKeepsWhatStaysHeld_lines : LinesOrdered pressed.traffic := lines_ordered_empty _ rfl

/-- R124: the two raises of one check are one FORCED notice, sent on an idle line with count 2 and the detail of the last. -/
theorem test_standing_check_coalesces :
    said { pressed with traffic := pressed.traffic.standingCheck pressed.view 0 } = some (4, 0, 2, 2) := by decide +kernel

theorem witness_ConfirmationRetires :
    issuedEntry (withActions [issued gate .safe 0] demo).traffic gate = some (issued gate .safe 0)
      ∧ confirms demo.view (issued gate .safe 0) = true
      ∧ (∀ x ∈ (withActions [issued gate .safe 0] demo).traffic.actions, x.isWaitingFor gate = false)
      ∧ issuedEntry (withActions [issued gate .nonSafe 4] demo).traffic gate = some (issued gate .nonSafe 4)
      ∧ confirms demo.view (issued gate .nonSafe 4) = false ∧ confirms demo.view (issued gate .nonSafe 3) = true
      ∧ issuedEntry demo.traffic gate = none
      ∧ (waiting signal 1).isIssuedFor gate = false ∧ (issued gate .safe 0).isIssuedFor gate = true
      ∧ (∀ v ∈ [100, 101],
          issuedEntry (withActions [issued gate .safe 0, waiting gate v, waiting gate 50] demo).traffic gate = some (issued gate .safe 0)
            ∧ (waiting gate v).isWaitingFor gate = true)
      ∧ commandPoint demo.tables gate = entries.head?
      ∧ (judge demo.view demo.traffic gate 100).severity = .pass ∧ (judge demo.view demo.traffic gate 101).severity = .clamp
      ∧ (confirms noWagon.view (issued gate .safe 0) = true ∧ (judge noWagon.view noWagon.traffic gate 50).severity = .hold)
      ∧ (confirms (demoIn .tripped).view (issued gate .safe 0) = true
          ∧ (judge (demoIn .tripped).view demo.traffic gate 50).severity = .refuse) := by decide +kernel

/-- R98: the movement reference and the last issued direction of the gate after an issued open, an issued close and a
confirmed close. -/
theorem test_movement_history :
    let history (s : State) := (s.traffic.history.get 0).get 0
    let opened := after (.gateSet (cmd 0 60)) demo
    let closing := after (.gateSet (cmd 0 0)) opened
    [opened, closing, after (.gatePosition (rpt 3 0)) closing].map history =
      [⟨.opened, .opening⟩, ⟨.opened, .closing⟩, ⟨.closed, .closing⟩] := by decide +kernel

theorem witness_FailedActionMakesSafe :
    (CommandsSound (withActions [issued gate .nonSafe 60] demo) ∧ CommandsSound (withActions [issued gate .nonSafe 60] (demoIn .alert))
      ∧ CommandsSound (withActions [issued gate .safe 0] demo) ∧ CommandsSound (withActions [issued gate .safe 0] (demoIn .isolated)))
      ∧ demo.resetPending = false
      ∧ issuedEntry (withActions [issued gate .nonSafe 60] demo).traffic gate = some (issued gate .nonSafe 60)
      ∧ issuedEntry (withActions [issued gate .safe 0] (demoIn .isolated)).traffic gate = some (issued gate .safe 0)
      ∧ issuedEntry demo.traffic gate = none := by
  refine ⟨⟨?_, ?_, ?_, ?_⟩, by decide +kernel⟩
  · exact commands_sound_one _ (issued gate .nonSafe 60) rfl rfl rfl (by decide +kernel) (by decide +kernel) (by decide +kernel)
  · exact commands_sound_one _ (issued gate .nonSafe 60) rfl rfl rfl (by decide +kernel) (by decide +kernel) (by decide +kernel)
  · exact commands_sound_one _ (issued gate .safe 0) rfl rfl rfl (by decide +kernel) (by decide +kernel) (by decide +kernel)
  · exact commands_sound_one _ (issued gate .safe 0) rfl rfl rfl (by decide +kernel) (by decide +kernel) (by decide +kernel)

/-- With nothing queued no action telegram is unmatched. -/
theorem telegrams_matched_empty (tr : Traffic) (h : tr.field.queue = []) : ActionTelegramsMatched tr := by
  simp [ActionTelegramsMatched, h]

theorem witness_TripLeavesSafeCommands :
    ((demo.pass 0).mode = .running ∧ ((demoIn .alert).pass 0).mode = .alert)
      ∧ CommandsSound (withActions [issued gate .nonSafe 60] demo)
      ∧ ActionTelegramsMatched (withActions [issued gate .nonSafe 60] demo).traffic
      ∧ (hasCommandPoint demo.tables gate = true ∧ gate.pass = 0)
      ∧ hasCommandPoint demo.tables (.gate 0 1) = false ∧ (Actuator.gate 0 1).pass = 0 :=
  ⟨by decide, commands_sound_one _ (issued gate .nonSafe 60) rfl rfl rfl (by decide +kernel) (by decide +kernel) (by decide +kernel),
    telegrams_matched_empty _ rfl, by decide +kernel⟩

/-- R133, R155, R160: a trip answers the safe commands' victims (CANCELLED 5, SAFE-PREEMPT 13) before the purge (REFUSED 1,
TRIP 14, in arrival order); an accepted isolation purges before its DONE. -/
theorem test_purge :
    let placed (s : State) := s.traffic.ctl.port.queue.map fun q => (q.tel.kind, q.tel.qual, q.tel.ann, q.tel.tag)
    let s := withPool [held gate 60, { held breaker 1 with requester := { src := 3, tag := 41, point := 2 } }] (withQueues [] [] [] demo)
    placed (after (.lineSilenceExpiry []) { withActions [issued gate .nonSafe 60] s with silence := some 0 }) =
        [(3, 5, 13, 70), (3, 1, 14, 40), (3, 1, 14, 41)]
      ∧ placed (after (.isolateConfirm (mrq 4 0)) { s with pendingIsolation := some { pass := 0, station := 2 } }) =
          [(3, 1, 14, 40), (3, 1, 14, 41), (6, 0, 0, 5)] := by decide +kernel

/-- Pass 0 unsurveyed, after the sample of a LEVEL report. -/
def unsurveyed (t : Telegram) : Pass :=
  { pass0 with
    column := { pass0.column with surveyed := false }
    est := { pass0.est with sample := some (sampleOf params (hit 7).entry t), life := some params.staleTime } }

theorem witness_LevelReport :
    let after (t : Telegram) : Pass :=
      { pass0 with est := { pass0.est with sample := some (sampleOf params (hit 7).entry t), life := some params.staleTime } }
    let causes (x : Pass) := enabledCauses params (findings params x false false).causes
    (∀ v ∈ [25610, 30200], fate .field (rpt 7 v) demo = .report (hit 7)) ∧ (hit 7).role = .level
      ∧ (causes (after (rpt 7 25610)) = [] ∧ ((after (rpt 7 25610)).evaluated params false false).band = pass0.est.band)
      ∧ (causes (unsurveyed (rpt 7 30200)) = []
          ∧ ((unsurveyed (rpt 7 30200)).evaluated params false false).band ≠ pass0.est.band)
      ∧ causes (after (rpt 7 30200)) ≠ []
      ∧ (rpt 7 (-1)).value.toInt < 0 ∧ 65535 < (rpt 7 65536).value.toInt ∧ 1 < (rpt 7 0 2).qual.toNat
      ∧ (∀ v ∈ [(0 : Int), 65535], ¬((rpt 7 v 1).value.toInt < 0 ∨ 65535 < (rpt 7 v 1).value.toInt ∨ 1 < (rpt 7 v 1).qual.toNat))
      ∧ (hit 7).entry.scaleNum = some 1 ∧ (hit 7).entry.scaleDen = some 10 ∧ 0 < 1
      ∧ 2 * ((roundDiv .nearest 5 10).1 * 10) + 10 = 2 * 5 := by decide +kernel

theorem witness_ColumnReports :
    fate .field (rpt 8 0) demo = .report (hit 8) ∧ fate .field (rpt 8 1) demo = .report (hit 8) ∧ (hit 8).role = .tip
      ∧ (rpt 8 0).value.toInt ≤ 0 ∧ 0 < (rpt 8 1).value.toInt
      ∧ fate .field (rpt 5 0) demo = .report (hit 5) ∧ fate .field (rpt 5 1) demo = .report (hit 5) ∧ (hit 5).role = .draw
      ∧ fate .field (rpt 11 0) demo = .report (hit 11) ∧ (hit 11).role = .grizzlyClear
      ∧ (pass0.column.accums.get (hit 11).object).tonnage = 0
      ∧ fate .field (rpt 11 0) (demoWith fun x => { x with column := { x.column with accums := Trio.all { tonnage := 1, wetness := .dry } } })
          = .report (hit 11)
      ∧ [0, 47].all (fun n => decide ((List.replicate n (charge 0 .survey 100 .dry)).length < 48)) = true
      ∧ (List.replicate 47 (charge 764 (.tip 0) 1500 .dry) ++ [charge 811 (.tip 1) 60000 .wet]).length = 48 := by decide +kernel

/-- The grizzly of tip point 0 at 100 below its limit. -/
def nearlyFull (signal : SignalState) : State :=
  demoWith fun x => { x with
    column := { x.column with accums := Trio.all { tonnage := 2900, wetness := .dry } }
    tips := Trio.all { signal := signal, breaker := .parked, standing := .below } }

/-- A tip that takes the grizzly to its limit exactly, under a signal ON and under an on ISSUED. -/
theorem witness_ColumnReports_crossing :
    let t := rpt 8 500 0 20
    (∀ s ∈ [nearlyFull .isOn, withActions [issued signal .nonSafe 1] (nearlyFull .isOff)],
        fate .field t s = .report (hit 8)
          ∧ ((((s.pass 0).column.tip .nearest s.time 0 500 .dry 20).1.accums.get 0).tonnage, (s.tables.grizzly.get 0).get 0)
              = (3000, 3000)
          ∧ (((s.pass 0).tips.get 0).signal = .isOn ∨ hasNonSafe s.traffic signal = true))
      ∧ hasCommandPoint tables signal = true ∧ CommandsSound (nearlyFull .isOn)
      ∧ CommandsSound (withActions [issued signal .nonSafe 1] (nearlyFull .isOff)) :=
  ⟨by decide +kernel, by decide +kernel, commands_sound_empty _ rfl rfl rfl,
    commands_sound_one _ (issued signal .nonSafe 1) rfl rfl rfl (by decide +kernel) (by decide +kernel) (by decide +kernel)⟩

theorem witness_ChuteReports :
    fate .field (rpt 6 0 1) demo = .report (hit 6) ∧ (hit 6).role = .chuteMoisture
      ∧ headWetness (pass0.column.moisten (reportWetness (rpt 6 0 1))) = headWetness pass0.column
      ∧ headWetness (pass0.column.moisten (reportWetness (rpt 6 0 2))) ≠ headWetness pass0.column
      ∧ fate .field (rpt 6 0 2) demo = .report (hit 6)
      ∧ (∀ v ∈ [(-1 : Int), 0, 1, 2], fate .field (rpt 4 v) demo = .report (hit 4)) ∧ (hit 4).role = .wagon
      ∧ (rpt 4 2).value ≠ 0 ∧ (rpt 4 2).value ≠ 1 ∧ (rpt 4 0).value = 0 ∧ (rpt 4 1).value = 1
      ∧ openAboveTolerance demo.view 0 0 = false ∧ hasIssued demo.traffic gate .nonSafe = false
      ∧ clearedColumn.charges = [] ∧ column.charges ≠ [] := by decide +kernel

/-- Slurry, and the wagon's leaving, over a gate confirmed open and over one with an open ISSUED. -/
theorem witness_ChuteReports_forced :
    (∀ s ∈ [openGate id, withActions [issued gate .nonSafe 60] demo],
        fate .field (rpt 6 0 3) s = .report (hit 6) ∧ fate .field (rpt 4 0) s = .report (hit 4)
          ∧ (s.pass 0).mode.isLive = true
          ∧ byWetness (s.tables.openings.get 0) (reportWetness (rpt 6 0 3)) = 0
          ∧ headWetness ((s.pass 0).column.moisten (reportWetness (rpt 6 0 3))) ≠ headWetness (s.pass 0).column
          ∧ (openAboveTolerance s.view 0 0 = true ∨ hasIssued s.traffic gate .nonSafe = true))
      ∧ hasCommandPoint tables gate = true ∧ CommandsSound (openGate id)
      ∧ CommandsSound (withActions [issued gate .nonSafe 60] demo) :=
  ⟨by decide +kernel, by decide +kernel, commands_sound_empty _ rfl rfl rfl,
    commands_sound_one _ (issued gate .nonSafe 60) rfl rfl rfl (by decide +kernel) (by decide +kernel) (by decide +kernel)⟩

theorem witness_GatePositionReport :
    ∀ v ∈ [(-1 : Int), 0, 3, 4, 100, 101], fate .field (rpt 3 v) demo = .report (hit 3) ∧ (hit 3).role = .gatePosition := by
  decide +kernel

/-- R97, R99, R104: an opening just above tolerance over Slurry: the movement is the primary cause, the mud rush the
secondary one, with the report as interrupted telegram. -/
theorem test_gate_moved_over_slurry :
    let s := demoWith fun x => { x with chutes := Duo.all { gate := some 0, wagon := .present, moisture := some .slurry } }
    let r := ((after (.gatePosition (rpt 3 4)) s).pass 0).alarm
    (r.primary, r.secondary, r.telegram.map fun x => (x.src, x.kind, x.point, x.value)) =
      (some .gateMoved, [.mudRush], some (10, 2, 3, 4)) := by decide +kernel

theorem witness_TipPointReports :
    (∀ v ∈ [(0 : Int), 1, 2], fate .field (rpt 9 v) demo = .report (hit 9)) ∧ (hit 9).role = .signalState
      ∧ (∀ v ∈ [(0 : Int), 1, 2, 3], fate .field (rpt 10 v) demo = .report (hit 10)) ∧ (hit 10).role = .breakerState
      ∧ (pass0.mode = .running ∧ ((demoIn .alert).pass 0).mode ≠ .running)
      ∧ fate .field (rpt 10 2) (withActions [issued breaker .nonSafe 1] demo) = .report (hit 10)
      ∧ issuedEntry (withActions [issued breaker .nonSafe 1] demo).traffic breaker = some (issued breaker .nonSafe 1)
      ∧ ([[issued breaker .nonSafe 1], [issued breaker .safe 0], []].map fun l =>
          let kept := withActions l (demoWith fun x => { x with tips := x.tips.set 0 { x.tips.get 0 with breaker := .fault } })
          (issuedEntry (kept.reportChange 0).traffic breaker).map ActionEntry.direction) = [some .nonSafe, some .safe, none] := by
  decide +kernel

/-- ON over a FULL grizzly. -/
theorem witness_TipPointReports_forced :
    let s := demoWith fun x => { x with tips := Trio.all { signal := .isOff, breaker := .parked, standing := .full } }
    fate .field (rpt 9 1) s = .report (hit 9) ∧ (rpt 9 1).value = 1 ∧ ((s.pass 0).tips.get 0).standing = .full
      ∧ hasCommandPoint s.tables signal = true ∧ CommandsSound s :=
  ⟨by decide +kernel, by decide +kernel, by decide +kernel, by decide +kernel, commands_sound_empty _ rfl rfl rfl⟩

theorem witness_NoticeSlotReports :
    let full := demoWith fun x => { x with slot := some { kind := .caution, station := 61, posted := 0 } }
    (∀ v ∈ [(0 : Int), 1, 3, 4], fate .field (rpt 12 v) demo = .report (hit 12) ∧ fate .field (rpt 12 v) full = .report (hit 12))
      ∧ (hit 12).role = .noticePost ∧ reportKind (rpt 12 1) = some .stopDraw ∧ reportKind (rpt 12 3) = some .caution
      ∧ reportKind (rpt 12 0) = none ∧ reportKind (rpt 12 4) = none
      ∧ pass0.slot = none ∧ (full.pass 0).slot = some { kind := .caution, station := 61, posted := 0 }
      ∧ fate .field (rpt 13 0) demo = .report (hit 13) ∧ fate .field (rpt 13 0) full = .report (hit 13)
      ∧ (hit 13).role = .noticeTaken := by decide +kernel

theorem witness_AppliedReportIsRelayed :
    (hit 4).entry.mode = some .forward ∧ (hit 7).entry.mode = some .absorb ∧ (hit 3).entry.mode = some .annotate := by
  decide +kernel

theorem witness_LineSilenceTripsEveryLivePass :
    ({ demo with silence := some 0 } : State).silence = some 0 ∧ ({ demo with silence := none } : State).silence = none
      ∧ demo.resetPending = false ∧ (demo.pass 0).mode.isLive = true ∧ ((demoIn .tripped).pass 0).mode = .tripped
      ∧ (demo.pass 1).mode.isLive = false ∧ (demo.pass 1).mode ≠ .tripped := by decide +kernel

theorem witness_SampleAndHoldTimersRunOut :
    ((demoWith fun x => { x with est := { x.est with life := some 0 } }).pass 0).est.life = some 0
      ∧ (demo.pass 0).mode ≠ .unconfigured ∧ (demo.pass 0).est.life = none ∧ demo.resetPending = false
      ∧ held gate 60 ∈ (withPool [held gate 60] demo).traffic.pool ∧ (held gate 60).actuator = gate
      ∧ PoolSound (withPool [held gate 60] demo) ∧ ∀ e ∈ demo.traffic.pool, e.actuator ≠ gate := by
  refine ⟨by decide +kernel, by decide +kernel, by decide +kernel, by decide +kernel, by decide +kernel, rfl,
    ⟨by decide +kernel, by decide +kernel⟩, by decide +kernel⟩

theorem witness_CausesMoveTheRecord :
    (demo.pass 0).mode = .running
      ∧ ((demoWith fun x => { x with mode := .alert, alarm := restartAlarm }).pass 0).alarm.primary = some .restart
      ∧ ((demoIn .alert).pass 0).mode = .alert ∧ ((demoIn .tripped).pass 0).mode = .tripped
      ∧ ((demoIn .isolated).pass 0).mode = .isolated ∧ (demo.pass 3).mode = .unconfigured := by decide +kernel

theorem witness_ReadsAnswer :
    fate .control (mrq 0) demo = .request .unknown ∧ fate .control (mrq 12) demo = .request .unknown
      ∧ fate .control (mrq 1 3 0 35) demo = .request .readItem ∧ (mrq 1 3 0 35).value = 0
      ∧ statusItem demo 35 (requestPass (mrq 1 3 0 35)) 0 = some 0
      ∧ (mrq 1 0 2 35).value ≠ 0 ∧ fate .control (mrq 1 0 2 35) demo = .request .readItem
      ∧ statusItem demo 36 (requestPass (mrq 1 0 0 36)) 0 = none ∧ statusItem demo 1 (requestPass (mrq 1 4 0 1)) 0 = none
      ∧ fate .control (mrq 1 0 0 36) demo = .request .readItem
      ∧ fate .control (mrq 1 1 1 0 127) demo = .request (.tableRead (some (.point 127 .valid)))
      ∧ fate .control (mrq 1 1 1 0 128) demo = .request (.tableRead none)
      ∧ (demo.pass 0).est.sample = none
      ∧ ((after (.level (rpt 7 25610)) demo).pass 0).est.sample = some { distance := 2561, quality := .good, inexact := false, fresh := true }
      ∧ (demo.pass 0).column.charges.length = 4 ∧ (demo.pass 0).column.charges[3]? = some (charge 3 (.tip 2) 1900 .dry) := by
  decide +kernel

theorem witness_WritesStoreTheirField :
    fate .control (mrq 2 9 0) demo = .request (.writeEntry none)
      ∧ fate .control (mrq 2 16 100 2) demo = .request (.writeEntry (some (.param 0 .area)))
      ∧ writeAllowed demo (.param 0 .area) = false ∧ writeAllowed (demoIn .isolated) (.param 0 .area) = true
      ∧ fate .control (mrq 2 16 100 2) (demoIn .isolated) = .request (.writeEntry (some (.param 0 .area)))
      ∧ fate .control (mrq 2 16 99 2) (demoIn .isolated) = .request (.writeEntry (some (.param 0 .area)))
      ∧ inRange 99 (.param 0 .area) = false ∧ inRange 100 (.param 0 .area) = true ∧ inRange 5000 (.param 0 .area) = true
      ∧ inRange 5001 (.param 0 .area) = false
      ∧ noneInService demo = false ∧ noneInService (demoIn .isolated) = true
      ∧ writeAllowed demo (.device .ownStation) = false ∧ writeAllowed (demoIn .isolated) (.device .ownStation) = true
      ∧ fate .control (mrq 2 2 600 2) demo = .request .writeLineSilenceTime
      ∧ ∀ v ∈ [(-1 : Int), 0, 600, 601],
          fate .control (mrq 2 2 v 2) (demoIn .isolated) = .request .writeLineSilenceTime
            ∧ (mrq 2 2 v 2).value.toInt = v := by decide +kernel

/-- The demonstration with pass 0 ISOLATED, entry 20 invalid but complete, and entry 21 a copy of entry 5's key. -/
def entering : State :=
  let fresh := { entry 20 .draw .forward 1 1 100 with valid := false, object := some 1 }
  { demoIn .isolated with
    tables := { tables with points := (tables.points.set 20 fresh).set 21 { entry 5 .draw .forward 1 1 100 with valid := false } } }

theorem witness_PointTableWrites :
    fate .control (mrq 2 1 1 0 20) demo = .request (.writeValid 20) ∧ noneInService demo = false
      ∧ noneInService entering = true
      ∧ (∀ v ∈ [(-1 : Int), 0, 1, 2], fate .control (mrq 2 1 v 0 20) entering = .request (.writeValid 20))
      ∧ fate .control (mrq 2 1 1 0 127) entering = .request (.writeValid 127)
      ∧ (isComplete (entering.tables.points.get 127) = false ∧ (entering.tables.points.get 127).valid = false)
      ∧ (isComplete (entering.tables.points.get 20) = true ∧ (entering.tables.points.get 20).valid = false
          ∧ pointBusy entering (entering.tables.points.get 20) = false
          ∧ isDuplicate entering.tables 20 (entering.tables.points.get 20) = false)
      ∧ pointBusy (withActions [issued gate .safe 0] entering) (entering.tables.points.get 20) = true
      ∧ fate .control (mrq 2 1 1 0 21) entering = .request (.writeValid 21)
      ∧ isDuplicate entering.tables 21 (entering.tables.points.get 21) = true
      ∧ (entering.tables.points.get 5).valid = true
      ∧ fate .control (mrq 2 1 0 0 5) entering = .request (.writeValid 5)
      ∧ fate .control (mrq 2 1 12 2 5) demo = .request (.writePointField 5 .point)
      ∧ (∀ v ∈ [(-1 : Int), 0, 63, 64], fate .control (mrq 2 1 v 2 5) entering = .request (.writePointField 5 .point))
      ∧ inRange 64 (.point 5 .point) = false ∧ inRange 63 (.point 5 .point) = true
      ∧ (entering.tables.points.get 5).write 5 .point = entering.tables.points.get 5
      ∧ objectFits ((entering.tables.points.get 5).write 2 .object) = false
      ∧ objectFits ((entering.tables.points.get 5).write 63 .point) = true
      ∧ isDuplicate entering.tables 5 ((entering.tables.points.get 5).write 4 .point) = true
      ∧ isDuplicate entering.tables 5 ((entering.tables.points.get 5).write 63 .point) = false
      ∧ PointSel.point.isRouting = true ∧ PointSel.mode.isRouting = false := by decide +kernel

theorem witness_PassWrites :
    (∀ v ∈ [(-1 : Int), 0, 1, 2],
        fate .control (mrq 2 16 v 0) demo = .request (.writeConfigured 0)
          ∧ fate .control (mrq 2 16 v 0) (demoIn .isolated) = .request (.writeConfigured 0)
          ∧ fate .control (mrq 2 17 v 0) demo = .request (.writeConfigured 1))
      ∧ (demo.pass 0).mode.inService = true ∧ ((demoIn .isolated).pass 0).mode = .isolated
      ∧ (demo.pass 1).mode = .unconfigured
      ∧ ((demoIn .isolated).pass 0).est.band ≠ .empty
      ∧ passBusy (demoIn .isolated).traffic 0 = false ∧ passBusy (withActions [issued gate .safe 0] (demoIn .isolated)).traffic 0 = true
      ∧ (∀ v ∈ [(99 : Int), 100, 6000, 6001],
          fate .control (mrq 2 16 v 1) (demoIn .isolated) = .request (.writeL 0)
            ∧ fate .control (mrq 2 17 v 1) demo = .request (.writeL 1) ∧ (mrq 2 16 v 1).value.toInt = v)
      ∧ ∀ v ∈ [(-1 : Int), 0, 60000, 60001],
          fate .control (mrq 2 64 v 2) (demoIn .isolated) = .request (.writeGrizzlyLimit 0 2)
            ∧ (mrq 2 64 v 2).value.toInt = v := by decide +kernel

/-- The limit written to the tonnage of the accumulator of an ISOLATED pass, and to 1 below it, its signal ON. -/
theorem witness_PassWrites_crossing :
    let s := demoWith fun x => { x with
      mode := .isolated
      column := { x.column with accums := Trio.all { tonnage := 300, wetness := .dry } }
      tips := Trio.all { signal := .isOn, breaker := .parked, standing := .below } }
    (∀ v ∈ [(1 : Int), 300], fate .control (mrq 2 64 v) s = .request (.writeGrizzlyLimit 0 0)
          ∧ 0 < (mrq 2 64 v).value.toInt ∧ (mrq 2 64 v).value.toInt ≤ ((s.pass 0).column.accums.get 0).tonnage)
      ∧ (s.pass 0).mode = .isolated ∧ ((s.pass 0).tips.get 0).standing = .below ∧ ((s.pass 0).tips.get 0).signal = .isOn
      ∧ hasCommandPoint s.tables signal = true ∧ CommandsSound s :=
  ⟨by decide +kernel, by decide +kernel, by decide +kernel, by decide +kernel, by decide +kernel, commands_sound_empty _ rfl rfl rfl⟩

/-- R77, R87: an ISOLATED pass with a held command that both writes re-judge (REFUSED, PASS-STATE) ahead of their DONE: L
raises BAND with detail 0; a limit of 0 takes a FULL grizzly BELOW. -/
theorem test_pass_writes_report :
    let s := withPool [held gate 60] (withQueues [] [] [] (demoWith fun x => { x with
      mode := .isolated
      tips := Trio.all { signal := .isOff, breaker := .parked, standing := .full } }))
    let answers (u : State) := u.traffic.ctl.port.queue.map fun q => (q.tel.kind, q.tel.qual, q.tel.ann)
    [after (.writeL (mrq 2 16 2000 1)) s, after (.writeGrizzlyLimit (mrq 2 64 0)) s].map (fun u => (noticed u, answers u)) =
      [([(.band, 0)], [(3, 1, 1), (6, 0, 0)]), ([], [(3, 1, 1), (6, 0, 0)])] := by decide +kernel

theorem witness_IsolationTakesTwoSteps :
    let pend (p : PassId) (b : Byte) := { demo with pendingIsolation := some { pass := p, station := b } }
    fate .control (mrq 3 0) { demo with bar := true } = .request .isolateRequest
      ∧ fate .control (mrq 3 4) demo = .request .isolateRequest ∧ requestPass (mrq 3 4) = none ∧ requestPass (mrq 3 3) = some 3
      ∧ fate .control (mrq 3 3) demo = .request .isolateRequest ∧ demo.bar = false
      ∧ fate .control (mrq 4 0) { demo with bar := true } = .request .isolateConfirm
      ∧ fate .control (mrq 4 0) (pend 0 3) = .request .isolateConfirm
      ∧ (pend 0 3).pendingIsolation ≠ some { pass := 0, station := (mrq 4 0).src }
      ∧ fate .control (mrq 4 0) (pend 0 2) = .request .isolateConfirm
      ∧ (pend 0 2).pendingIsolation = some { pass := 0, station := (mrq 4 0).src }
      ∧ ((pend 0 2).pass 0).mode.inService = true ∧ atRest (pend 0 2).view (pend 0 2).traffic 0 = true
      ∧ atRest demo.view (withActions [issued gate .safe 0] demo).traffic 0 = false
      ∧ (pend 3 2).pendingIsolation = some { pass := 3, station := (mrq 4 3).src }
      ∧ ((pend 3 2).pass 3).mode.inService = false := by decide +kernel

theorem witness_PassesReturnToService :
    fate .control (mrq 5 4) demo = .request .restore ∧ requestPass (mrq 5 4) = none ∧ requestPass (mrq 5 0) = some 0
      ∧ fate .control (mrq 5 0) (demoIn .isolated) = .request .restore
      ∧ ((demoIn .isolated).pass 0).mode = .isolated ∧ (demo.pass 0).mode ≠ .isolated
      ∧ (demo.params 0).cushion + (demo.params 0).highFill + 2 ≤ (demo.params 0).len
      ∧ (let p := { params with len := 701 }; p.len < p.cushion + p.highFill + 2)
      ∧ (let p := { params with len := 702 }; p.cushion + p.highFill + 2 ≤ p.len)
      ∧ fate .control (mrq 6 0) (demoIn .alert) = .request .acknowledge ∧ ((demoIn .alert).pass 0).mode = .alert
      ∧ (demo.pass 0).mode ≠ .alert ∧ fate .control (mrq 6 4) demo = .request .acknowledge
      ∧ (let causes (x : Pass) := enabledCauses params (findings params x false false).causes
        causes pass0 = [] ∧ causes { pass0 with column := clearedColumn } = [.invalid]) := by decide +kernel

theorem witness_ColumnRequests :
    fate .control (mrq 7 0) demo = .request .passReset ∧ fate .control (mrq 7 4) demo = .request .passReset
      ∧ requestPass (mrq 7 4) = none ∧ requestPass (mrq 7 0) = some 0 ∧ (demo.pass 1).mode = .unconfigured
      ∧ (demo.pass 0).mode.inService = true ∧ atRest demo.view demo.traffic 0 = true
      ∧ atRest demo.view (withActions [issued gate .safe 0] demo).traffic 0 = false
      ∧ ((demoIn .isolated).pass 0).mode = .isolated ∧ fate .control (mrq 7 0) (demoIn .isolated) = .request .passReset
      ∧ (∀ v ∈ [(0 : Int), 1, 60000, 60001],
          fate .control (mrq 8 0 v 3) demo = .request .surveyLoad ∧ (mrq 8 0 v 3).value.toInt = v)
      ∧ Wetness.ofCode (mrq 8 0 1 3).qual.toNat = some .slurry ∧ 3 < (mrq 8 0 1 4).qual.toNat
      ∧ fate .control (mrq 8 0 1 4) demo = .request .surveyLoad := by decide +kernel

/-- R159: a TRIPPED pass at rest with a full slot: the slot's notice has event CLEARED, and the evaluation of the cleared
column finds V and raises the record anew. -/
theorem test_pass_reset_clears_the_slot :
    let s := demoWith fun x => { x with
      mode := .tripped
      slot := some { kind := .caution, station := 61, posted := 0 }
      alarm := { restartAlarm with level := .trip, primary := some .mudRush } }
    let u := after (.passReset (mrq 7 0)) (withQueues [] [] [] s)
    let r := (u.pass 0).alarm
    noticed u = [(.slot, 43), (.alert, 3)] ∧ (r.level, r.primary, r.raisedAt) = (.alert, some .invalid, 2000) := by
  decide +kernel

theorem witness_DeviceRequests :
    (∀ b ∈ [(0 : Byte), 3, 4, 5], fate .control (mrq 9 b) demo = .request .clearFlags)
      ∧ (mrq 9 4).table = 4 ∧ 4 < (mrq 9 5).table.toNat ∧ requestPass (mrq 9 0) = some 0 ∧ requestPass (mrq 9 3) = some 3
      ∧ (demo.pass 0).mode ≠ .unconfigured ∧ (demo.pass 3).mode = .unconfigured
      ∧ fate .control (mrq 10 0 (-1)) demo = .request .timeSet
      ∧ fate .control (msg 255 2 5 10 0 0 0 9 0) demo = .broadcast ∧ (msg 255 2 5 10 0 0 0 9 0).kind = 5
      ∧ (msg 255 2 5 10 0 0 0 9 0).point = 10 ∧ fate .control (mrq 11) demo = .request .deviceReset := by decide +kernel

theorem witness_RefusedRequestsChangeNothing :
    arrival (.gateSet (mrq 6 0)) = some (.control, mrq 6 0) ∧ fate .control (mrq 6 0) demo = .request .acknowledge
      ∧ (requestReply .acknowledge (mrq 6 0) demo).status ≠ .done ∧ (requestReply .isolateConfirm (mrq 4 0) demo).status ≠ .done := by
  decide +kernel

theorem witness_WrittenFieldsReadBack :
    inRange 0 (.device .silenceTime) = true ∧ inRange 600 (.device .silenceTime) = true
      ∧ inRange 201 (.cell 3 .breakerStart .alert) = true ∧ inRange 99 (.cell 3 .gateOpen .alert) = true
      ∧ inRange 14 (.point 127 .role) = true ∧ (∀ i, TableField.point 127 .role ≠ .point i .valid)
      ∧ TableField.device .silenceTime ≠ .device .ownStation := by decide +kernel

theorem witness_TablesChangeOutOfServiceOnly :
    (∃ u, exec (.level (rpt 7 0)) demo = .next u) ∧ (demo.pass 0).mode.inService = true := ⟨⟨_, rfl⟩, by decide +kernel⟩

/-- An event that is no start-up: the time base goes on. -/
theorem not_started_up (cause : ResetCause) (s u : State) (h : u.time ≠ 0) : ¬startedUp cause s u := fun hs =>
  h (congrArg State.time hs.1)

theorem witness_AlarmedPassesStay :
    ((∃ u, exec (.level (rpt 7 0)) (demoIn .tripped) = .next u ∧ ∀ cause, ¬startedUp cause (demoIn .tripped) u)
      ∧ arrival (.level (rpt 7 0)) = some (.field, rpt 7 0) ∧ ((demoIn .tripped).pass 0).mode = .tripped)
    ∧ (∃ u, exec (.surveyLoad (mrq 8 0 1)) (demoIn .alert) = .next u ∧ ∀ cause, ¬startedUp cause (demoIn .alert) u)
    ∧ requestOf (mrq 8 0 1) = .surveyLoad ∧ ((demoIn .alert).pass 0).mode = .alert := by
  refine ⟨⟨⟨_, exec_after _ _ (by decide +kernel), fun c => not_started_up c _ _ (by decide +kernel)⟩, by decide +kernel, by decide +kernel⟩,
    ⟨_, exec_after _ _ (by decide +kernel), fun c => not_started_up c _ _ (by decide +kernel)⟩, by decide +kernel, by decide +kernel⟩

theorem witness_IsolationRegistersStand :
    (∃ u, exec (.passReset (mrq 7 0)) { demo with bar := true } = .next u ∧ ∀ cause, ¬startedUp cause { demo with bar := true } u)
    ∧ ({ demo with bar := true } : State).bar = true ∧ arrival (.passReset (mrq 7 0)) = some (.control, mrq 7 0)
    ∧ requestOf (mrq 7 0) = .passReset := by
  refine ⟨⟨_, exec_after _ _ (by decide +kernel), fun c => not_started_up c _ _ (by decide +kernel)⟩, by decide +kernel, by decide +kernel, by decide +kernel⟩

/-- A sample of pass 0. -/
def sampled (d : Nat) (q : Quality) : Pass :=
  { pass0 with est := { pass0.est with sample := some { distance := d, quality := q, inexact := false, fresh := true } } }

theorem witness_EstimateIsTheWeightedMean :
    (∀ d ∈ [0, 20, 3020, 3021], usableSample (sampled d .good).est = some { distance := d, quality := .good, inexact := false, fresh := true })
      ∧ usableSample (sampled 20 .bad).est = none ∧ usableSample pass0.est = none
      ∧ (let weights (pr : PassParams) (x : Pass) := findings pr x false false
        let light : PassParams := { params with sensorWeight := 1 }
        let unsurveyed : Pass := { sampled 20 .uncertain with column := { column with surveyed := false } }
        (weights light unsurveyed).h = none ∧ (weights params unsurveyed).h = some 3000
          ∧ (weights light (sampled 20 .uncertain)).h = some 432)
      ∧ (findings params (sampled 20 .good) false false).h = some 2358 := by decide +kernel

theorem witness_DivergenceComparesTheHeights :
    (usableSample (sampled 20 .good).est = some { distance := 20, quality := .good, inexact := false, fresh := true }
      ∧ (findings params (sampled 20 .good) false false).hs = some 3000 ∧ (sampled 20 .good).column.surveyed = true
      ∧ params.sensorOffset ≤ 20 ∧ 20 ≤ params.len + params.sensorOffset)
    ∧ (∀ sm, usableSample (sampled 3021 .good).est = some sm → params.len + params.sensorOffset < sm.distance) := by
  refine ⟨by decide +kernel, fun sm h => ?_⟩
  obtain rfl : sm = { distance := 3021, quality := .good, inexact := false, fresh := true } := by
    have e : usableSample (sampled 3021 .good).est = some { distance := 3021, quality := .good, inexact := false, fresh := true } := by
      decide +kernel
    exact Option.some.inj (h.symm.trans e)
  decide +kernel

theorem witness_BandsFollowTheHeight :
    params.cushion + params.highFill + 2 ≤ params.len ∧ 0 < params.len
      ∧ [0, 1, 300, 301, 2599, 2600, 2999, 3000].map (rawBand params) =
          [.empty, .low, .low, .normal, .normal, .high, .high, .full]
      ∧ (Band.normal.code ≤ (rawBand params 2600).code) ∧ (rawBand params 2599).code < Band.high.code
      ∧ enabledCauses params (findings params (sampled 20 .good) false false).causes ≠ []
      ∧ enabledCauses params (findings params (sampled 2561 .good) false false).causes = []
      ∧ (findings params (sampled 2561 .good) false false).hs = some 459 ∧ (findings params pass0 false false).hs = none
      ∧ (findings params pass0 false false).h = some 432
      ∧ (findings params { pass0 with column := clearedColumn } false false).h = none := by decide +kernel

/-- Draws that leave 5, under a residue threshold of 100: with nothing to merge, with one merge and with two; and one that
leaves the head at its threshold. -/
theorem witness_DrawTakesFromTheHead :
    let total (l : List Charge) : Nat := (l.map Charge.remaining).sum
    let head := charge 0 .survey 3050 .damp
    let small := charge 1 (.tip 0) 20 .dry
    let large := charge 2 (.tip 1) 2750 .wet
    ([head, small, large, small] = [] ++ head :: ([small, large] ++ [small]) ∧ [head, large] = [] ++ head :: ([large] ++ [])
        ∧ [small, head] = [small] ++ head :: ([] ++ []))
      ∧ total [] ≤ 3045 ∧ 3045 < total [] + head.remaining
      ∧ (3050 - (3045 - total []) < 100 ∧ 5 + small.remaining < 100 ∧ 100 ≤ 25 + large.remaining)
      ∧ (total [small] ≤ 2970 ∧ 2970 < total [small] + head.remaining ∧ 100 ≤ 3050 - (2970 - total [small]))
      ∧ total column.charges ≤ 11300 := by decide +kernel

theorem witness_TipSplitsItsPayload :
    column.charges.length < 48 ∧ column.spill ≤ Config.totalCeiling
      ∧ (let full := List.replicate 47 (charge 764 (.tip 0) 1500 .dry) ++ [charge 811 (.tip 1) 59200 .dry]
        full.length = 48 ∧ (roundDiv .nearest (1500 * 20) 100).1 < 1500 ∧ (roundDiv .nearest (1500 * 100) 100).1 = 1500)
      ∧ (roundDiv .nearest (1 * 100) 100).1 = 1 ∧ (roundDiv .nearest (1 * 0) 100).1 = 0 := by decide +kernel

theorem witness_StepKeepsColumns : AccountsBalance demo ∧ ColumnsSound demo ∧ ∃ t, step demo = .next t := by
  refine ⟨?_, ?_, ⟨_, rfl⟩⟩
  · unfold AccountsBalance Column.counting Column.balanced
    decide +kernel
  · intro p
    refine ⟨?_, ?_, ?_, ?_⟩
    · revert p; decide +kernel
    · unfold Charge.sound; revert p; decide +kernel
    · match p with
      | 0 => exact ⟨by decide +kernel, by decide +kernel, by decide +kernel, (by decide +kernel : (4 : Half) = 3 + 1)⟩
      | 1 | 2 | 3 => exact trivial
    · unfold Accumulator.sound; revert p; decide +kernel

theorem witness_StepKeepsEstimates : EstimatesSound demo := by
  unfold EstimatesSound estimateSound
  decide +kernel

theorem witness_StepKeepsQueues : QueuesBounded demo ∧ NoticesSound demo ∧ PoolSound demo ∧ TelegramsChecked demo := by
  refine ⟨⟨by decide +kernel, by decide +kernel, fun _ _ h => absurd h (by simp [demo, clearedTraffic, clearedPort])⟩,
    ⟨by decide +kernel, fun _ h => absurd h (by simp [demo, clearedTraffic])⟩, ⟨by decide +kernel, by decide +kernel⟩, ?_⟩
  simp [TelegramsChecked, demo, clearedTraffic, clearedPort]

theorem witness_StepKeepsCommands :
    CommandsSound (withActions [issued gate .nonSafe 60] demo)
      ∧ ActionTelegramsMatched (withActions [issued gate .nonSafe 60] demo).traffic :=
  ⟨commands_sound_one _ (issued gate .nonSafe 60) rfl rfl rfl (by decide +kernel) (by decide +kernel) (by decide +kernel),
    telegrams_matched_empty _ rfl⟩

theorem witness_StepKeepsPassStates :
    let s := demoWith fun x => { x with mode := .alert, alarm := restartAlarm }
    AlarmsSound s ∧ PassStatesStored s := by
  refine ⟨?_, ?_⟩
  · intro p
    match p with
    | 0 =>
      refine ⟨by decide +kernel, fun _ => ⟨.restart, by decide +kernel, by decide +kernel⟩,
        fun _ => ⟨fun c hc => ?_, by decide +kernel⟩, by decide +kernel⟩
      cases hc
      decide
    | 1 | 2 | 3 =>
      exact ⟨by decide +kernel, fun h => absurd (by decide +kernel) h, fun h => absurd h (by decide +kernel), by decide +kernel⟩
  · unfold PassStatesStored
    decide +kernel

end Sys2Proof.Tests
end

/-! Telegrams at the ports: an invalid address (R6), a broadcast (R9), and what the Field Port's arbiter sends next
(R15). -/

namespace Sys2Proof.Machine

section receiving

variable {port : PortId} {t : Telegram} {s : State}

/-! ### An invalid address (R6) -/

theorem addressValid_iff :
    addressValid t = true ↔ t.dest ≠ 0 ∧ t.dest ≠ 254 ∧ t.src ≠ 0 ∧ t.src ≠ 254 ∧ t.src ≠ 255 := by
  simp [addressValid, and_assoc]

theorem addressValid_eq_false_iff :
    addressValid t = false ↔ t.dest = 0 ∨ t.dest = 254 ∨ t.src = 0 ∨ t.src = 254 ∨ t.src = 255 := by
  rw [← Bool.not_eq_true, addressValid_iff]
  simp only [not_and_or, not_not]

theorem fate_of_addressInvalid (hc : checkHolds t = true) (hp : s.resetPending = false)
    (ha : addressValid t = false) : fate port t s = .badAddress := by
  simp [fate, hc, hp, ha]

theorem receive_of_addressInvalid (hc : checkHolds t = true) (hp : s.resetPending = false)
    (ha : addressValid t = false) : receive port t s = heard port s := by
  rw [receive, fate_of_addressInvalid hc hp ha, deal]

/-! ### A broadcast (R9) -/

theorem fate_of_broadcast (hc : checkHolds t = true) (hp : s.resetPending = false) (ha : addressValid t = true)
    (hd : t.dest = 255) : fate port t s = .broadcast := by
  simp [fate, hc, hp, ha, hd, broadcastStation]

theorem receive_of_broadcast (hc : checkHolds t = true) (hp : s.resetPending = false) (ha : addressValid t = true)
    (hd : t.dest = 255) : receive port t s = (heard port s).takeBroadcast port t := by
  rw [receive, fate_of_broadcast hc hp ha hd, deal]

theorem isTimeSet_iff : isTimeSet t = true ↔ t.kind = 5 ∧ t.point = 10 := by
  simp [isTimeSet, kindMRQ]

theorem State.takeBroadcast_field : s.takeBroadcast .field t = s.relayFrom .field t := by
  simp [State.takeBroadcast]

/-- The Control Port side of R9: the relayed telegram, and the time base where the broadcast is a TIME-SET. -/
theorem State.takeBroadcast_control :
    s.takeBroadcast .control t
      = { s.relayFrom .control t with time := if t.kind = 5 ∧ t.point = 10 then t.value else s.time } := by
  unfold State.takeBroadcast
  by_cases h : t.kind = 5 ∧ t.point = 10
  · rw [if_pos ⟨rfl, isTimeSet_iff.mpr h⟩, if_pos h]; rfl
  · rw [if_neg fun hc => h (isTimeSet_iff.mp hc.2), if_neg h]; rfl

end receiving

/-! ### What the Field Port sends next (R15) -/

section arbiter

variable {q : Queued} {queue pre post rest : List Queued} {tr : Traffic} {s : State} {x : Sending} {a : Actuator}
variable {d : Direction} {l : List ActionEntry}

theorem Queued.isSafeAction_iff : q.isSafeAction = true ↔ ∃ a, q.cls = .action a .safe := by
  unfold Queued.isSafeAction
  split
  · rename_i a h; exact ⟨fun _ => ⟨a, h⟩, fun _ => rfl⟩
  · rename_i h; exact ⟨nofun, fun ⟨a, ha⟩ => absurd ha (h a)⟩

theorem noteSent_of_action (h : q.cls = .action a d) : noteSent q l = setStanding a true l := by
  simp [noteSent, h]

theorem noteSent_of_ne_action (h : ∀ a d, q.cls ≠ .action a d) : noteSent q l = l := by
  unfold noteSent
  split
  · rename_i a d ha; exact absurd ha (h a d)
  · rfl

/-- R138: an ISSUED entry of the actuator becomes SENT; a WAITING one has no standing to change. -/
theorem setStanding_true_eq_map :
    setStanding a true l = l.map fun e =>
      { e with state := match e.state with
          | .issued deadline sent tel => .issued deadline (sent || decide (e.actuator = a)) tel
          | .waiting => .waiting } := by
  refine List.map_congr_left fun ⟨b, _, _, _, _, state⟩ _ => ?_
  cases state with
  | waiting => rfl
  | issued deadline sent tel => by_cases h : b = a <;> simp [ActionEntry.isIssuedFor, ActionEntry.withStanding, h]

theorem fieldChoice_nil : fieldChoice [] = none := rfl

theorem fieldChoice_of_safe (hpre : ∀ y ∈ pre, y.isSafeAction = false) (hq : q.isSafeAction = true) :
    fieldChoice (pre ++ q :: post) = some (q, pre ++ post) := by
  have hfind : (pre ++ q :: post).find? Queued.isSafeAction = some q := by
    rw [List.find?_append, List.find?_eq_none.mpr (by simpa using hpre), List.find?_cons_of_pos hq]; rfl
  have herase : (pre ++ q :: post).eraseP Queued.isSafeAction = pre ++ post := by
    rw [List.eraseP_append_right _ (by simpa using hpre), List.eraseP_cons_of_pos hq]
  simp only [fieldChoice, hfind, herase]

theorem fieldChoice_of_no_safe (h : ∀ y ∈ q :: rest, y.isSafeAction = false) :
    fieldChoice (q :: rest) = some (q, rest) := by
  have hfind : (q :: rest).find? Queued.isSafeAction = none := List.find?_eq_none.mpr (by simpa using h)
  simp only [fieldChoice, hfind]

/-- On a line just fallen idle the arbiter sends its choice and notes it SENT. -/
theorem Traffic.fieldArbitrate_freed_of_choice (hc : fieldChoice tr.field.queue = some (q, rest)) :
    Traffic.fieldArbitrate { tr with field := { tr.field with sending := none } }
      = { tr with
          field := { tr.field with queue := rest, sending := some { tel := q.tel, endsInReset := false } }
          actions := noteSent q tr.actions } := by
  simp only [Traffic.fieldArbitrate, hc]

theorem Traffic.fieldArbitrate_of_no_choice (hc : fieldChoice tr.field.queue = none) : tr.fieldArbitrate = tr := by
  obtain h | ⟨q, rest, -, hsome, -⟩ := tr.fieldArbitrate_cases
  · exact h
  · rw [hc] at hsome; cases hsome

/-- LINE_FREE on a busy Field Port: the line falls idle and its arbiter chooses. -/
theorem exec_lineFree_field (hx : s.traffic.field.sending = some x) :
    exec (.lineFree .field) s = .next
      { s with
        traffic := Traffic.fieldArbitrate { s.traffic with field := { s.traffic.field with sending := none } } } := by
  simp only [exec, execLineFree, State.fieldLineFree, hx, State.onTraffic]

theorem exec_lineFree_field_of_choice (hx : s.traffic.field.sending = some x)
    (hc : fieldChoice s.traffic.field.queue = some (q, rest)) :
    exec (.lineFree .field) s = .next
      { s with
        traffic := { s.traffic with
          field := { s.traffic.field with
            queue := rest, sending := some { tel := q.tel, endsInReset := false } }
          actions := noteSent q s.traffic.actions } } := by
  rw [exec_lineFree_field hx, Traffic.fieldArbitrate_freed_of_choice hc]

end arbiter

/-! ### The statements -/

/-- Settles O9: such a telegram has the fate R6 gives it, and receiving it is at most to hear it. -/
theorem invalidAddressIsDiscarded : Obligations.InvalidAddressIsDiscarded := by
  refine ⟨fun t => addressValid_iff, fun port t s hc hp ha => ?_⟩
  rw [exec_arrival rfl, receive_of_addressInvalid hc hp (addressValid_eq_false_iff.mpr ha)]
  cases port <;> rfl

/-- Settles O11: a broadcast has the fate R9 gives it, and the two ports differ in what they hear and take. -/
theorem broadcastIsRelayed : Obligations.BroadcastIsRelayed := by
  intro t s hc hp ha hd
  constructor
  · rw [exec_arrival rfl, receive_of_broadcast hc hp ha hd, State.takeBroadcast_control]; rfl
  · rw [exec_arrival rfl, receive_of_broadcast hc hp ha hd, State.takeBroadcast_field]; rfl

/-- Settles O14, by what the arbiter's choice is in each of R15's cases. -/
theorem fieldArbiterChooses : Obligations.FieldArbiterChooses := by
  refine ⟨fun q l => ⟨Queued.isSafeAction_iff, fun a d h => ?_, noteSent_of_ne_action⟩, fun s x hx => ⟨?_, ?_⟩⟩
  · rw [noteSent_of_action h]; exact setStanding_true_eq_map
  · rintro pre q post hqueue (⟨hpre, hq⟩ | ⟨rfl, hnone⟩)
    · exact exec_lineFree_field_of_choice hx (hqueue ▸ fieldChoice_of_safe hpre hq)
    · rw [hqueue] at hnone
      exact exec_lineFree_field_of_choice hx (hqueue ▸ fieldChoice_of_no_safe hnone)
  · intro hempty
    rw [exec_lineFree_field hx, Traffic.fieldArbitrate_of_no_choice (by rw [hempty]; exact fieldChoice_nil)]

end Sys2Proof.Machine

/-! Level arithmetic and bands: the stages of an evaluation (R63 to R69), the fill band (R74, R75), and what an
evaluation leaves of the estimate (R70, R72, R73). -/

namespace Sys2Proof.Machine

/-! ### Rounding (R58) -/

/-- A quotient is not rounded past a whole number that bounds it. -/
theorem roundDiv_le {m : Rounding} {a b k : Nat} (h : a ≤ k * b) : (roundDiv m a b).1 ≤ k := by
  have floor_le : a / b ≤ k := Nat.div_le_of_le_mul (by rwa [Nat.mul_comm])
  have floor_lt (hr : a % b ≠ 0) : a / b < k := by
    refine Nat.lt_of_le_of_ne floor_le fun hk => hr ?_
    have hsplit := Nat.div_add_mod a b
    rw [hk, Nat.mul_comm] at hsplit
    omega
  rcases Nat.eq_zero_or_pos b with rfl | hb
  · obtain rfl : a = 0 := by simpa using h
    cases m <;> simp [roundDiv]
  · cases m with
    | down => exact floor_le
    | up =>
      simp only [roundDiv]
      split
      · exact floor_le
      · exact floor_lt ‹_›
    | nearest =>
      simp only [roundDiv]
      split
      · exact floor_le
      · have := floor_lt (by omega)
        split_ifs <;> omega

/-- A whole quotient is not rounded. -/
theorem roundDiv_mul_self {m : Rounding} {k b : Nat} (hb : 0 < b) : roundDiv m (k * b) b = (k, false) := by
  cases m <;> simp [roundDiv, Nat.mul_div_cancel k hb, hb]

section stages

variable {pr : PassParams} {x : Pass} {e : Estimate} {sm : Sample} {o u : Bool} {m : Rounding}
variable {wc hc ws hs d k : Nat} {q : Quality} {l : List Charge}

/-! ### The sample (R63) -/

theorem usableSample_eq_some_iff :
    usableSample e = some sm ↔ e.sample = some sm ∧ sm.fresh = true ∧ sm.quality ≠ .bad := by
  unfold usableSample
  cases e.sample with
  | none => simp
  | some held =>
    by_cases h : held.fresh = true ∧ held.quality ≠ .bad
    · simp only [if_pos h, Option.some.injEq]
      exact ⟨fun he => ⟨he, he ▸ h⟩, And.left⟩
    · simp only [if_neg h, Option.some.injEq]
      exact ⟨nofun, fun ⟨he, hsm⟩ => absurd (he ▸ hsm) h⟩

theorem usableSample_eq_none_iff :
    usableSample e = none ↔ ∀ sm, ¬(e.sample = some sm ∧ sm.fresh = true ∧ sm.quality ≠ .bad) := by
  simp only [Option.eq_none_iff_forall_ne_some, ne_eq, usableSample_eq_some_iff]

theorem badSample_iff : badSample e = true ↔ ∃ sm, e.sample = some sm ∧ sm.fresh = true ∧ sm.quality = .bad := by
  unfold badSample
  cases e.sample <;> simp

/-! ### The column (R64) -/

theorem columnVolume_fst : (columnVolume pr l).1 = (l.map fun c => (chargeVolume pr c).1).sum := by
  induction l with
  | nil => rfl
  | cons c cs ih => simp [columnVolume, ih]

theorem columnVolume_snd : (columnVolume pr l).2 = true ↔ ∃ c ∈ l, (chargeVolume pr c).2 = true := by
  induction l with
  | nil => simp [columnVolume]
  | cons c cs ih => simp [columnVolume, ih]

/-- The height that the volumes of the charges give, before it is saturated at L. -/
def columnRise (pr : PassParams) (l : List Charge) : Nat × Bool :=
  roundDiv pr.rounding (100 * (l.map fun c => (chargeVolume pr c).1).sum) pr.area

theorem columnHeight_value : (columnHeight pr l).value = min (columnRise pr l).1 pr.len := by
  simp only [columnHeight, columnRise, columnVolume_fst]

theorem columnHeight_bounded : (columnHeight pr l).bounded = true ↔ pr.len < (columnRise pr l).1 := by
  simp only [columnHeight, columnRise, columnVolume_fst, decide_eq_true_eq]

theorem columnHeight_inexact :
    (columnHeight pr l).inexact = true ↔ (∃ c ∈ l, (chargeVolume pr c).2 = true) ∨ (columnRise pr l).2 = true := by
  simp only [columnHeight, columnRise, columnVolume_fst, Bool.or_eq_true, columnVolume_snd]

theorem columnHeight_le : (columnHeight pr l).value ≤ pr.len := Nat.min_le_right _ _

/-! ### The sensor (R65, R66) -/

theorem sensorHeight_fst :
    (sensorHeight pr d).1 =
      if d < pr.sensorOffset then pr.len
      else if d ≤ pr.len + pr.sensorOffset then pr.len + pr.sensorOffset - d else 0 := by
  unfold sensorHeight
  split_ifs <;> rfl

theorem sensorHeight_le : (sensorHeight pr d).1 ≤ pr.len := by
  rw [sensorHeight_fst]
  split_ifs <;> omega

theorem sensorHeight_overflow : (sensorHeight pr d).2 = .overflow ↔ d < pr.sensorOffset := by
  unfold sensorHeight
  split_ifs <;> simp [*]

theorem sensorHeight_underflow : (sensorHeight pr d).2 = .underflow ↔ pr.len + pr.sensorOffset < d := by
  unfold sensorHeight
  split_ifs <;> simp <;> omega

theorem sensorHeight_unclamped :
    (sensorHeight pr d).2 = .unclamped ↔ pr.sensorOffset ≤ d ∧ d ≤ pr.len + pr.sensorOffset := by
  unfold sensorHeight
  split_ifs <;> simp <;> omega

theorem sensorWeight_sensorHeight :
    sensorWeight pr q (sensorHeight pr d).2 =
      if q = .good ∧ pr.sensorOffset ≤ d ∧ d ≤ pr.len + pr.sensorOffset then pr.sensorWeight
      else pr.sensorWeight / 2 := by
  simp only [sensorWeight, sensorHeight_unclamped]

/-! ### The fused estimate (R67) -/

theorem fusedHeight_of_pos (h : 0 < wc + ws) :
    fusedHeight m wc hc ws hs = some (roundDiv m (wc * hc + ws * hs) (wc + ws)) := if_neg h.ne'

theorem fusedHeight_eq_none_iff : fusedHeight m wc hc ws hs = none ↔ wc + ws = 0 := by
  simp [fusedHeight]

theorem fusedHeight_column (h : 0 < wc) : fusedHeight m wc hc 0 hs = some (hc, false) := by
  rw [fusedHeight_of_pos (by omega), Nat.zero_mul, Nat.add_zero, Nat.add_zero, Nat.mul_comm, roundDiv_mul_self h]

theorem fusedHeight_sensor (h : 0 < ws) : fusedHeight m 0 hc ws hs = some (hs, false) := by
  rw [fusedHeight_of_pos (by omega), Nat.zero_mul, Nat.zero_add, Nat.zero_add, Nat.mul_comm, roundDiv_mul_self h]

/-- R67: a weighted mean lies where the heights do. -/
theorem fusedHeight_le (hc_le : hc ≤ k) (hs_le : hs ≤ k) {r : Nat × Bool} (h : fusedHeight m wc hc ws hs = some r) :
    r.1 ≤ k := by
  rcases Nat.eq_zero_or_pos (wc + ws) with h0 | hpos
  · rw [fusedHeight_eq_none_iff.mpr h0] at h; cases h
  · rw [fusedHeight_of_pos hpos] at h
    cases h
    refine roundDiv_le ?_
    calc wc * hc + ws * hs ≤ wc * k + ws * k := Nat.add_le_add (Nat.mul_le_mul_left _ hc_le) (Nat.mul_le_mul_left _ hs_le)
      _ = k * (wc + ws) := by ring

/-! ### The findings without a usable sample -/

theorem findings_hc : (findings pr x o u).hc = (columnHeight pr x.column.charges).value := by
  unfold findings
  cases usableSample x.est <;> rfl

/-- Without a sensor weight the estimate is the column's own height, without rounding. -/
theorem fusedHeight_unsampled :
    fusedHeight m wc hc 0 0 = if wc = 0 then none else some (hc, false) := by
  split
  · exact fusedHeight_eq_none_iff.mpr (by omega)
  · exact fusedHeight_column (by omega)

theorem findings_of_unusable (h : usableSample x.est = none) :
    findings pr x o u =
      { hc := (columnHeight pr x.column.charges).value
        hs := none
        h := if columnWeight pr x.column.surveyed = 0 then none else some (columnHeight pr x.column.charges).value
        causes :=
          { i := (columnHeight pr x.column.charges).inexact
            o := o || (columnHeight pr x.column.charges).bounded
            u := u
            v := badSample x.est || decide (columnWeight pr x.column.surveyed = 0)
            g := none } } := by
  simp only [findings, h, fusedHeight_unsampled]
  split <;> simp [*]

/-! ### The findings with a usable sample -/

/-- Stage 5 with a usable sample: the mean of the column's height and the sensor's. -/
def fusedWith (pr : PassParams) (x : Pass) (sm : Sample) : Option (Nat × Bool) :=
  fusedHeight pr.rounding (columnWeight pr x.column.surveyed) (columnHeight pr x.column.charges).value
    (sensorWeight pr sm.quality (sensorHeight pr sm.distance).2) (sensorHeight pr sm.distance).1

theorem findings_of_usable (h : usableSample x.est = some sm) :
    findings pr x o u =
      { hc := (columnHeight pr x.column.charges).value
        hs := some (sensorHeight pr sm.distance).1
        h := (fusedWith pr x sm).map Prod.fst
        causes :=
          { i := sm.inexact || (columnHeight pr x.column.charges).inexact
              || ((fusedWith pr x sm).map Prod.snd).getD false
            o := o || (columnHeight pr x.column.charges).bounded
              || decide ((sensorHeight pr sm.distance).2 = .overflow)
            u := u || decide ((sensorHeight pr sm.distance).2 = .underflow)
            v := (fusedWith pr x sm).isNone
            g := if x.column.surveyed = true ∧ sm.quality = .good ∧ (sensorHeight pr sm.distance).2 = .unclamped
              then divergence pr.divergenceLimit (columnHeight pr x.column.charges).value
                (sensorHeight pr sm.distance).1
              else none } } := by
  simp only [findings, h, fusedWith]

/-- R67: an estimate that is formed lies between 0 and L. -/
theorem findings_h_le {h : Nat} (hf : (findings pr x o u).h = some h) : h ≤ pr.len := by
  cases hu : usableSample x.est with
  | none =>
    rw [findings_of_unusable hu] at hf
    obtain ⟨-, hc⟩ := Option.ite_none_left_eq_some.mp hf
    exact Option.some.inj hc ▸ columnHeight_le
  | some sm =>
    rw [findings_of_usable hu] at hf
    obtain ⟨r, hr, rfl⟩ := Option.map_eq_some_iff.mp hf
    exact fusedHeight_le columnHeight_le sensorHeight_le hr

/-! ### Divergence (R68) -/

theorem divergence_high {limit : Nat} : divergence limit hc hs = some .high ↔ hc + limit < hs := by
  unfold divergence
  split
  · simp [*]
  · split <;> simp [*]

theorem divergence_low {limit : Nat} : divergence limit hc hs = some .low ↔ hs + limit < hc := by
  unfold divergence
  split
  · simp; omega
  · split <;> simp [*]

/-- Stage 6 is made. -/
theorem findings_g_of_compared (h : usableSample x.est = some sm) (hcol : x.column.surveyed = true)
    (hq : sm.quality = .good) (hb : pr.sensorOffset ≤ sm.distance ∧ sm.distance ≤ pr.len + pr.sensorOffset) :
    (findings pr x o u).causes.g =
      divergence pr.divergenceLimit (columnHeight pr x.column.charges).value (sensorHeight pr sm.distance).1 := by
  rw [findings_of_usable h]
  exact if_pos ⟨hcol, hq, sensorHeight_unclamped.mpr hb⟩

/-- Stage 6 is not made. -/
theorem findings_g_of_not_compared
    (h : ∀ sm, usableSample x.est = some sm → ¬(x.column.surveyed = true ∧ sm.quality = .good
      ∧ pr.sensorOffset ≤ sm.distance ∧ sm.distance ≤ pr.len + pr.sensorOffset)) :
    (findings pr x o u).causes.g = none := by
  cases hu : usableSample x.est with
  | none => rw [findings_of_unusable hu]
  | some sm =>
    rw [findings_of_usable hu]
    refine if_neg fun ⟨hcol, hq, hb⟩ => h sm hu ⟨hcol, hq, sensorHeight_unclamped.mp hb⟩

/-! ### What an evaluation stores (R70, R72, R73) -/

theorem evaluated_of_clear (h : enabledCauses pr (findings pr x o u).causes = []) :
    x.evaluated pr o u = (x.est.record (findings pr x o u).causes).store pr (findings pr x o u) := if_pos h

theorem evaluated_of_found (h : enabledCauses pr (findings pr x o u).causes ≠ []) :
    x.evaluated pr o u = x.est.record (findings pr x o u).causes := if_neg h

/-- R70: whatever is found, the cause set is replaced, its sticky flags are set, and the sample is left alone. -/
theorem evaluated_record :
    (x.evaluated pr o u).causes = (findings pr x o u).causes
      ∧ (x.evaluated pr o u).sticky = x.est.sticky.mark (findings pr x o u).causes
      ∧ (x.evaluated pr o u).sample = x.est.sample ∧ (x.evaluated pr o u).life = x.est.life := by
  by_cases h : enabledCauses pr (findings pr x o u).causes = []
  · rw [evaluated_of_clear h]; exact ⟨rfl, rfl, rfl, rfl⟩
  · rw [evaluated_of_found h]; exact ⟨rfl, rfl, rfl, rfl⟩

theorem evaluated_h_of_unformed (hf : (findings pr x o u).h = none) : (x.evaluated pr o u).h = x.est.h := by
  by_cases h : enabledCauses pr (findings pr x o u).causes = []
  · rw [evaluated_of_clear h, Estimate.store, hf]; rfl
  · rw [evaluated_of_found h]; rfl

end stages

/-- A cause is picked where its condition holds; the pick of a list is the picks of its members in order. -/
theorem picked_cons {α : Type} (b : Bool) (a : α) (l : List (Bool × α)) :
    (((b, a) :: l).filter Prod.fst).map Prod.snd = (if b then [a] else []) ++ (l.filter Prod.fst).map Prod.snd := by
  cases b <;> rfl

theorem enabledCauses_eq_picked (pr : PassParams) (c : CauseSet) :
    enabledCauses pr c =
      ([(c.o && pr.enableO, Cause.overflow), (c.u && pr.enableU, .underflow), (c.v && pr.enableV, .invalid),
        (c.g == some .high && pr.enableG, .divergenceHigh), (c.g == some .low && pr.enableG, .divergenceLow),
        (c.i && pr.enableI, .inexact)].filter Prod.fst).map Prod.snd := by
  simp only [picked_cons, enabledCauses, List.append_assoc]
  rcases c.g with _ | _ | _ <;> simp

/-! ### Bands (R74, R75) -/

section bands

variable {pr : PassParams} {h : Nat} {current a b : Band}

theorem Band.code_eq_zero_iff : a.code = 0 ↔ a = .empty := by cases a <;> decide

theorem Band.code_eq_four_iff : a.code = 4 ↔ a = .full := by cases a <;> decide

theorem Band.code_lower : (a.lower b).code = min a.code b.code := by
  unfold Band.lower
  split <;> omega

theorem rawBand_zero : rawBand pr 0 = .empty := rfl

theorem rawBand_len (h0 : h ≠ 0) (hl : h = pr.len) : rawBand pr h = .full := by
  rw [rawBand, if_neg h0, if_pos hl]

theorem rawBand_low (h0 : h ≠ 0) (hl : h ≠ pr.len) (hc : h ≤ pr.cushion) : rawBand pr h = .low := by
  rw [rawBand, if_neg h0, if_neg hl, if_pos hc]

theorem rawBand_high (h0 : h ≠ 0) (hl : h ≠ pr.len) (hc : pr.cushion < h) (hh : pr.len ≤ h + pr.highFill) :
    rawBand pr h = .high := by
  rw [rawBand, if_neg h0, if_neg hl, if_neg (by omega), if_pos hh]

theorem rawBand_normal (h0 : h ≠ 0) (hl : h ≠ pr.len) (hc : pr.cushion < h) (hh : h + pr.highFill < pr.len) :
    rawBand pr h = .normal := by
  rw [rawBand, if_neg h0, if_neg hl, if_neg (by omega), if_neg (by omega)]

/-- R74: with consistent parameters the five bands part the heights from 0 to L. -/
theorem rawBand_iff (hp : pr.cushion + pr.highFill + 2 ≤ pr.len) (hle : h ≤ pr.len) :
    (rawBand pr h = .empty ↔ h = 0) ∧ (rawBand pr h = .low ↔ 0 < h ∧ h ≤ pr.cushion)
      ∧ (rawBand pr h = .normal ↔ pr.cushion < h ∧ h < pr.len - pr.highFill)
      ∧ (rawBand pr h = .high ↔ pr.len - pr.highFill ≤ h ∧ h < pr.len) ∧ (rawBand pr h = .full ↔ h = pr.len) := by
  unfold rawBand
  split_ifs <;> simp <;> omega

/-- Strictly between 0 and L the raw band is strictly between EMPTY and FULL. -/
theorem rawBand_inner (h0 : 0 < h) (hl : h < pr.len) : 0 < (rawBand pr h).code ∧ (rawBand pr h).code < 4 := by
  rw [rawBand, if_neg h0.ne', if_neg hl.ne]
  split_ifs <;> decide

theorem updatedBand_zero : updatedBand pr 0 current = .empty := rfl

theorem updatedBand_len (h0 : h ≠ 0) (hl : h = pr.len) : updatedBand pr h current = .full := by
  rw [updatedBand, if_neg h0, if_pos hl]

theorem updatedBand_of_le (h0 : h ≠ 0) (hl : h ≠ pr.len) (hr : current.code ≤ (rawBand pr h).code) :
    updatedBand pr h current = rawBand pr h := by
  rw [updatedBand, if_neg h0, if_neg hl, if_pos hr]

/-- R75: a band falls only as far as the band of the height with the hysteresis added. -/
theorem updatedBand_of_lt (h0 : h ≠ 0) (hl : h ≠ pr.len) (hr : (rawBand pr h).code < current.code) :
    (updatedBand pr h current).code = min current.code (rawBand pr (min (h + pr.hysteresis) (pr.len - 1))).code := by
  rw [updatedBand, if_neg h0, if_neg hl, if_neg (by omega), Band.code_lower]

/-- Strictly between 0 and L the band is strictly between EMPTY and FULL, whatever it was. -/
theorem updatedBand_inner (h0 : 0 < h) (hl : h < pr.len) :
    0 < (updatedBand pr h current).code ∧ (updatedBand pr h current).code < 4 := by
  have hraw := rawBand_inner h0 hl
  rcases Nat.lt_or_ge (rawBand pr h).code current.code with hr | hr
  · have hraised := rawBand_inner (pr := pr) (h := min (h + pr.hysteresis) (pr.len - 1)) (by omega) (by omega)
    rw [updatedBand_of_lt h0.ne' hl.ne hr]
    omega
  · rwa [updatedBand_of_le h0.ne' hl.ne hr]

theorem updatedBand_eq_empty_iff (hle : h ≤ pr.len) :
    updatedBand pr h current = .empty ↔ h = 0 := by
  refine ⟨fun he => by_contra fun h0 => ?_, fun h0 => h0 ▸ updatedBand_zero⟩
  rcases hle.eq_or_lt with hl | hl
  · rw [updatedBand_len h0 hl] at he; cases he
  · have := (updatedBand_inner (current := current) (Nat.pos_of_ne_zero h0) hl).1
    rw [he] at this; cases this

theorem updatedBand_eq_full_iff (hp : 0 < pr.len) (hle : h ≤ pr.len) :
    updatedBand pr h current = .full ↔ h = pr.len := by
  refine ⟨fun hf => by_contra fun hl => ?_, fun hl => updatedBand_len (by omega) hl⟩
  rcases Nat.eq_zero_or_pos h with rfl | h0
  · rw [updatedBand_zero] at hf; cases hf
  · have := (updatedBand_inner (current := current) h0 (lt_of_le_of_ne hle hl)).2
    rw [hf] at this; exact absurd this (by decide)

end bands

/-! ### The statements -/

/-- Settles O51, by the findings with and without a usable sample and by what the fused estimate is under each weight. -/
theorem estimateIsTheWeightedMean : Obligations.EstimateIsTheWeightedMean := by
  intro pr x o u f volume rise columnInexact hc wc reach usable
  have hcol : (columnHeight pr x.column.charges).value = hc := columnHeight_value
  have hbounded : (columnHeight pr x.column.charges).bounded = true ↔ pr.len < rise.1 := columnHeight_bounded
  have hinexact : (columnHeight pr x.column.charges).inexact = true ↔ columnInexact := columnHeight_inexact
  have hwc : columnWeight pr x.column.surveyed = wc := rfl
  refine ⟨findings_hc.trans hcol, fun sm => usableSample_eq_some_iff, ?_, ?_, fun h => findings_h_le,
    evaluated_h_of_unformed⟩
  · intro sm hu d hs ws mean
    have hf : f = _ := findings_of_usable (usableSample_eq_some_iff.mpr hu)
    have hfused : fusedWith pr x sm = fusedHeight pr.rounding wc hc ws hs := by
      rw [fusedWith, hcol, hwc, sensorHeight_fst, sensorWeight_sensorHeight]
    rw [hfused, sensorHeight_fst] at hf
    simp only [hf, Bool.or_eq_true, decide_eq_true_eq, hbounded, hinexact, sensorHeight_overflow,
      sensorHeight_underflow, or_assoc]
    refine ⟨rfl, fun hpos => ⟨?_, ?_, ?_⟩, fun h0 => ?_, Iff.rfl, Iff.rfl, ?_, ?_⟩
    · rw [fusedHeight_of_pos hpos]; rfl
    · intro hws; rw [hws, fusedHeight_column (by omega)]; rfl
    · intro hwc; rw [hwc, fusedHeight_sensor (by omega)]; rfl
    · rw [fusedHeight_eq_none_iff.mpr h0]; rfl
    · rw [Option.isNone_iff_eq_none, fusedHeight_eq_none_iff]
    · rcases Nat.eq_zero_or_pos (wc + ws) with h0 | hpos
      · simp [fusedHeight_eq_none_iff.mpr h0, h0]
      · simp [fusedHeight_of_pos hpos, hpos, mean]
  · intro hu
    have hf : f = _ := findings_of_unusable (usableSample_eq_none_iff.mpr hu)
    rw [hcol, hwc] at hf
    simp only [hf, Bool.or_eq_true, decide_eq_true_eq, hbounded, hinexact, badSample_iff, true_and, and_true]
    exact ⟨fun hpos => if_neg hpos.ne', fun h0 => if_pos h0, or_comm⟩

/-- Settles O52: where stage 6 is made the finding is the comparison of the two heights, and elsewhere there is none. -/
theorem divergenceComparesTheHeights : Obligations.DivergenceComparesTheHeights := by
  intro pr x o u f
  refine ⟨fun sm hs hu hhs hcol hq hlow hhigh => ?_, fun hnot => findings_g_of_not_compared ?_⟩
  · have hsensor : (sensorHeight pr sm.distance).1 = hs := by
      rw [show f.hs = _ from congrArg Findings.hs (findings_of_usable hu)] at hhs
      exact Option.some.inj hhs
    have hg : f.causes.g = divergence pr.divergenceLimit f.hc hs := by
      rw [findings_g_of_compared hu hcol hq ⟨hlow, hhigh⟩, hsensor, findings_hc]
    rw [hg, divergence_high, divergence_low]
    omega
  · rintro sm hu ⟨hcol, hq, hlow, hhigh⟩
    exact absurd (hnot sm hu hcol hq hlow) (by omega)

/-- Settles O53, by the raw band's tests, the hysteresis and what an evaluation stores. -/
theorem bandsFollowTheHeight : Obligations.BandsFollowTheHeight := by
  refine ⟨fun pr h current => ?_, ?_, enabledCauses_eq_picked⟩
  · exact ⟨fun h0 => h0 ▸ rawBand_zero, rawBand_len, rawBand_low,
      fun h0 hl hc hh => rawBand_high h0 hl hc (by omega), fun h0 hl hc hh => rawBand_normal h0 hl hc (by omega),
      rawBand_iff, fun h0 => h0 ▸ updatedBand_zero, updatedBand_len, updatedBand_of_le, updatedBand_of_lt,
      fun hp hle => ⟨updatedBand_eq_empty_iff hle, updatedBand_eq_full_iff hp hle⟩⟩
  · intro pr x o u f c e
    obtain ⟨hcauses, hsticky, hsample, hlife⟩ := evaluated_record (pr := pr) (x := x) (o := o) (u := u)
    refine ⟨hcauses, hsticky, hsample, hlife, fun hclear => ?_, fun hfound => ?_⟩
    · have he : e = (x.est.record c).store pr f := evaluated_of_clear hclear
      rw [he]
      refine ⟨rfl, fun n hn => ?_, fun hn => ?_, fun n hn => ?_, fun hn => ?_, rfl⟩
      all_goals rw [Estimate.store, hn]; rfl
    · rw [show e = _ from evaluated_of_found hfound]
      exact ⟨rfl, rfl, rfl, rfl⟩

end Sys2Proof.Machine

/-! What every step keeps of the columns and their accounts (R32, R33, R35, R50). -/

namespace Sys2Proof.Machine

/-! ### The account of a column through each change (R50) -/

/-- R50: where the account of `c` balanced while its counters counted, so does that of `c'`. -/
def Column.followedBy (c c' : Column) : Prop := (c.counting → c.balanced) → c'.counting → c'.balanced

section accounts

variable {c c' : Column} {now : Word} {t : TipId} {m : Rounding} {p q r d n s : Nat} {w : Wetness}

theorem Column.followedBy_refl : c.followedBy c := id

/-- The totals of the column and the bars, and the four counters, are all that the account reads. -/
theorem Column.followedBy_of_same (h1 : columnTotal c' = columnTotal c) (h2 : accumTotal c' = accumTotal c)
    (h3 : c'.base = c.base) (h4 : c'.tipped = c.tipped) (h5 : c'.drawn = c.drawn) (h6 : c'.shortfall = c.shortfall)
    (h7 : c'.spill = c.spill) : c.followedBy c' := by
  intro h hc
  unfold Column.counting at h hc
  unfold Column.balanced at h ⊢
  rw [h4, h5, h6, h7] at hc
  rw [h1, h2, h3, h4, h5, h6, h7]
  exact h hc

/-- R37, R38: what a placement does to the account, while Spill counts. -/
theorem place_counted {o : Origin} {b : Bool} (h : (c.place now o w b q).1.spill < Config.totalCeiling) :
    c.spill < Config.totalCeiling
      ∧ columnTotal (c.place now o w b q).1 + (c.place now o w b q).1.spill = columnTotal c + q + c.spill :=
  (place_balance c now o w b q).1 h

theorem moisten_total : columnTotal (c.moisten w) = columnTotal c := by
  unfold Column.moisten
  split
  · rfl
  · rename_i h; simp [columnTotal, h]

theorem moisten_followedBy : c.followedBy (c.moisten w) := by
  refine Column.followedBy_of_same moisten_total ?_ ?_ ?_ ?_ ?_ ?_ <;> unfold Column.moisten <;> split <;> rfl

theorem survey_followedBy : c.followedBy (c.survey now n w) := by
  intro _ _
  simp [Column.balanced, Column.survey, Column.append, columnTotal, accumTotal]

theorem cleared_balanced : clearedColumn.balanced := rfl

theorem clearGrizzly_followedBy : c.followedBy (c.clearGrizzly now t).1 := by
  intro h ⟨h1, h2, h3, h4⟩
  obtain ⟨hplaced, haccums, hbase, htipped, hdrawn, hshort, -⟩ :=
    place_balance c now (.grizzly t) (c.accums.get t).wetness true (c.accums.get t).tonnage
  have hbars := barsTotal_set c.accums t emptyAccumulator
  simp only [Column.clearGrizzly] at h1 h2 h3 h4 ⊢
  obtain ⟨hspill, htotal⟩ := hplaced h4
  have hold := h ⟨htipped ▸ h1, hdrawn ▸ h2, hshort ▸ h3, hspill⟩
  simp only [Column.balanced, columnTotal_eq, accumTotal_eq, emptyAccumulator] at hold hbars htotal ⊢
  rw [haccums, hbase, htipped, hdrawn, hshort]
  omega

theorem tip_followedBy (hs : s ≤ 100) : c.followedBy (c.tip m now t p w s).1 := by
  intro h ⟨h1, h2, h3, h4⟩
  have ho := oversizeOf_le m p s hs
  simp only [Column.tip] at h1 h2 h3 h4 ⊢
  generalize hcounted : ({ c with tipped := addTotal c.tipped p } : Column) = counted at *
  generalize hplaced : (if p - oversizeOf m p s = 0 then (counted, false)
    else counted.place now (.tip t) w false (p - oversizeOf m p s)) = placed at *
  -- the fines
  have hfines : placed.1.accums = counted.accums ∧ placed.1.base = counted.base ∧ placed.1.tipped = counted.tipped
      ∧ placed.1.drawn = counted.drawn ∧ placed.1.shortfall = counted.shortfall
      ∧ (placed.1.spill < Config.totalCeiling → counted.spill < Config.totalCeiling
          ∧ columnTotal placed.1 + placed.1.spill = columnTotal counted + (p - oversizeOf m p s) + counted.spill) := by
    rw [← hplaced]
    split
    · rename_i hz; exact ⟨rfl, rfl, rfl, rfl, rfl, fun h => ⟨h, by rw [hz]; rfl⟩⟩
    · obtain ⟨b1, b2, b3, b4, b5, b6, -⟩ := place_balance counted now (.tip t) w false (p - oversizeOf m p s)
      exact ⟨b2, b3, b4, b5, b6, b1⟩
  obtain ⟨f1, f2, f3, f4, f5, f6⟩ := hfines
  generalize hdone : (if oversizeOf m p s = 0 then (placed.1, false)
    else placed.1.accumulate t (oversizeOf m p s) w) = done at *
  -- the oversize
  have hbars : done.1.charges = placed.1.charges ∧ done.1.base = placed.1.base ∧ done.1.tipped = placed.1.tipped
      ∧ done.1.drawn = placed.1.drawn ∧ done.1.shortfall = placed.1.shortfall
      ∧ (done.1.spill < Config.totalCeiling → placed.1.spill < Config.totalCeiling
          ∧ accumTotal done.1 + done.1.spill = accumTotal placed.1 + oversizeOf m p s + placed.1.spill) := by
    rw [← hdone]
    split
    · rename_i hz; exact ⟨rfl, rfl, rfl, rfl, rfl, fun h => ⟨h, by rw [hz]; rfl⟩⟩
    · obtain ⟨b1, b2, b3, b4, b5, b6, -⟩ := accumulate_balance placed.1 t (oversizeOf m p s) w
      exact ⟨b2, b3, b4, b5, b6, b1⟩
  obtain ⟨g1, g2, g3, g4, g5, g6⟩ := hbars
  obtain ⟨k1, k2⟩ := g6 h4
  obtain ⟨l1, l2⟩ := f6 k1
  rw [g3, f3, ← hcounted] at h1
  obtain ⟨m1, m2⟩ := addTotal_lt h1
  have hc : c.counting := by
    refine ⟨m1, ?_, ?_, ?_⟩
    · rw [g4, f4, ← hcounted] at h2; exact h2
    · rw [g5, f5, ← hcounted] at h3; exact h3
    · rw [← hcounted] at l1; exact l1
  have hold := h hc
  simp only [Column.balanced, columnTotal_eq, accumTotal_eq] at hold k2 l2 ⊢
  rw [g1, g2, g3, g4, g5, f2, f3, f4, f5]
  rw [f1] at k2
  subst hcounted
  simp only at *
  omega

theorem draw_followedBy : c.followedBy (c.draw r now d).1 := by
  intro h ⟨h1, h2, h3, h4⟩
  have htaken := takeFrom_tonnage d c.charges
  have hshort := takeFrom_short d c.charges
  simp only [Column.draw] at h1 h2 h3 h4 ⊢
  generalize takeFrom d c.charges = taken at *
  obtain ⟨l, u⟩ := taken
  cases l with
  | nil =>
    simp only at h1 h2 h3 h4 ⊢
    obtain ⟨k1, k2⟩ := addTotal_lt h2
    obtain ⟨l1, l2⟩ := addTotal_lt h3
    have hold := h ⟨h1, k1, l1, h4⟩
    simp only [Column.balanced, columnTotal_eq, accumTotal_eq, tonnage_nil] at hold htaken ⊢
    omega
  | cons head above =>
    simp only at h1 h2 h3 h4 ⊢
    have hmerged := residueRule_tonnage r now head above
    obtain ⟨k1, k2⟩ := addTotal_lt h2
    obtain ⟨l1, l2⟩ := addTotal_lt h4
    have hold := h ⟨h1, k1, h3, l1⟩
    have hu := hshort (List.cons_ne_nil _ _)
    simp only [Column.spilled, Column.balanced, columnTotal_eq, accumTotal_eq, tonnage_cons] at hold htaken hu l2 ⊢
    omega

theorem ColumnEdit.followedBy {pr : PassParams} (h : ColumnEdit pr c c') : c.followedBy c' := by
  cases h with
  | tip now t n w share _ _ hs => exact tip_followedBy hs
  | draw => exact draw_followedBy
  | clearGrizzly => exact clearGrizzly_followedBy
  | moisten => exact moisten_followedBy
  | survey => exact survey_followedBy

end accounts

/-! ### The shape of a column through each change (R32, R33, R35) -/

section shapes

variable {c c' : Column} {now : Word} {t : TipId} {m : Rounding} {p r d n s : Nat} {w : Wetness}

theorem cleared_sound : clearedColumn.sound :=
  ⟨Nat.zero_le _, nofun, trivial, fun t => by simp [clearedColumn, emptyAccumulator, Accumulator.sound]⟩

theorem moisten_sound (h : c.sound) : (c.moisten w).sound := by
  unfold Column.moisten
  split
  · exact h
  · rename_i head rest hl
    obtain ⟨k1, k2, k3, k4⟩ := h
    rw [hl] at k1 k2 k3
    refine ⟨k1, ?_, numbersRun_head k3 rfl, k4⟩
    intro x hx
    rcases List.mem_cons.mp hx with rfl | hx
    · exact k2 head (by simp)
    · exact k2 x (List.mem_cons_of_mem _ hx)

theorem survey_sound (h : c.sound) (h1 : 1 ≤ n) (h2 : n ≤ Config.tonnageCeiling) : (c.survey now n w).sound := by
  refine ⟨by simp [Column.survey, Column.append, Config.columnCapacity], ?_, rfl, h.2.2.2⟩
  intro x hx
  obtain rfl := List.mem_singleton.mp hx
  exact ⟨h1, Nat.le_refl _, h2⟩

theorem clearGrizzly_sound (h : c.sound) (hz : (c.accums.get t).tonnage ≠ 0) : (c.clearGrizzly now t).1.sound := by
  have hplaced : (c.place now (.grizzly t) (c.accums.get t).wetness true (c.accums.get t).tonnage).1.sound :=
    place_sound h (Nat.pos_of_ne_zero hz) (h.2.2.2 t).1
  obtain ⟨k1, k2, k3, k4⟩ := hplaced
  refine ⟨k1, k2, k3, fun t' => ?_⟩
  simp only [Column.clearGrizzly, Trio.get_set]
  split
  · simp [emptyAccumulator, Accumulator.sound]
  · exact k4 t'

theorem tip_sound (h : c.sound) (h2 : p ≤ 6000) : (c.tip m now t p w s).1.sound := by
  have hfines : (if p - oversizeOf m p s = 0 then (({ c with tipped := addTotal c.tipped p } : Column), false)
      else ({ c with tipped := addTotal c.tipped p } : Column).place now (.tip t) w false (p - oversizeOf m p s)).1.sound := by
    split
    · exact h
    · exact place_sound h (by omega) (by simp only [Config.tonnageCeiling]; omega)
  simp only [Column.tip]
  split
  · exact hfines
  · exact accumulate_sound hfines (by omega)

theorem draw_sound (h : c.sound) : (c.draw r now d).1.sound := by
  obtain ⟨k1, k2, k3, k4⟩ := h
  obtain ⟨t1, t2, t3⟩ := takeFrom_sound (d := d) k2 k3
  unfold Column.draw
  split
  · exact ⟨Nat.zero_le _, nofun, trivial, k4⟩
  · rename_i head above u htaken
    rw [htaken] at t1 t2 t3
    obtain ⟨i1, i2, i3⟩ := residueRule_sound (r := r) (now := now) (t2 head (by simp))
      (fun x hx => t2 x (List.mem_cons_of_mem _ hx)) t3
    exact ⟨by simp only [List.length_cons] at t1; exact i1.trans (t1.trans k1), i2, i3, k4⟩

theorem ColumnEdit.sound {pr : PassParams} (h : ColumnEdit pr c c') (hc : c.sound) : c'.sound := by
  cases h with
  | tip now t n w share _ hn _ => exact tip_sound hc hn
  | draw => exact draw_sound hc
  | clearGrizzly now t hz => exact clearGrizzly_sound hc hz
  | moisten => exact moisten_sound hc
  | survey now n w h1 h2 => exact survey_sound hc h1 h2

end shapes

/-! ### The records of the passes after the moves that are made whole -/

section records

variable {s : State} {p : PassId}

theorem restarted_pass (cause : ResetCause) (s : State) (q : PassId) :
    (s.restarted cause).pass q = restartedPass (s.params q).configured (s.tables.marks.get q) := by
  match q with
  | 0 | 1 | 2 | 3 => rfl

theorem tripped_pass (c : Cause) (tel : Option Interrupted) (q : PassId) :
    (s.tripped p c tel).pass q =
      if q = p then { s.pass p with
        mode := .tripped, alarm := raisedAlarm .trip c (secondaryAtTrip (s.pass p)) s.time (s.pass p).est tel }
      else s.pass q := State.setPass_pass q

theorem isolated_pass (q : PassId) :
    (s.isolated p).pass q =
      if q = p then { s.pass p with mode := .isolated, alarm := (s.pass p).alarm.quieted } else s.pass q :=
  State.setPass_pass q

theorem restored_pass (q : PassId) :
    (s.restored p).pass q = if q = p then { s.pass p with mode := .running } else s.pass q := State.setPass_pass q

theorem configured_pass (q : PassId) :
    (s.configured p).pass q = if q = p then { s.pass p with mode := .isolated } else s.pass q := State.setPass_pass q

theorem unconfigured_pass (q : PassId) :
    (s.unconfigured p).pass q = if q = p then clearedPass .unconfigured else s.pass q := State.setPass_pass q

theorem lengthened_pass (n : Int) (q : PassId) :
    (s.lengthened p n).pass q =
      if q = p ∧ (s.pass p).mode = .isolated then (s.pass p).flattened else s.pass q := by
  unfold State.lengthened
  by_cases hm : (s.pass p).mode = .isolated
  · simp only [hm, if_true, and_true]
    exact State.setPass_pass q
  · simp [hm]

theorem elapse_pass (q : PassId) : s.elapse.pass q = (s.pass q).tick := Quad.get_map _ _ q

end records

/-! ### Columns through every move -/

/-- The column of a pass after a move: as it was, edited, or cleared. -/
inductive ColumnMoved (pr : PassParams) (c : Column) : Column → Prop
  | same {c' : Column} : c' = c → ColumnMoved pr c c'
  | edit {c' : Column} : ColumnEdit pr c c' → ColumnMoved pr c c'
  | cleared {c' : Column} : c' = clearedColumn → ColumnMoved pr c c'

section moves

variable {s u : State} {p : PassId}

theorem PassEdit.columnMoved {pr : PassParams} {x y : Pass} (h : PassEdit pr x y) :
    ColumnMoved pr x.column y.column := by
  cases h with
  | column c _ hc => exact .edit hc
  | reset => exact .cleared rfl
  | _ => exact .same rfl

theorem restartedPass_column (b k : Bool) : (restartedPass b k).column = clearedColumn := by
  unfold restartedPass
  split_ifs <;> rfl

/-- A write of one pass leaves the others' columns. -/
theorem ColumnMoved.ite {pr : PassParams} {x y : Pass} {b : Prop} [Decidable b]
    (h : b → ColumnMoved pr x.column y.column) : ColumnMoved pr x.column (if b then y else x).column := by
  split
  · exact h ‹_›
  · exact .same rfl

theorem Move.columnMoved (h : Move s u) (q : PassId) :
    ColumnMoved (s.params q) (s.pass q).column (u.pass q).column := by
  cases h with
  | edit p x hx =>
    rw [State.setPass_pass]
    exact .ite fun hq => hq ▸ hx.columnMoved
  | restarted cause => rw [restarted_pass]; exact .cleared (restartedPass_column _ _)
  | tripped p c tel => rw [tripped_pass]; exact .ite fun hq => .same (hq ▸ rfl)
  | isolated p => rw [isolated_pass]; exact .ite fun hq => .same (hq ▸ rfl)
  | restored p => rw [restored_pass]; exact .ite fun hq => .same (hq ▸ rfl)
  | configured p => rw [configured_pass]; exact .ite fun hq => .same (hq ▸ rfl)
  | unconfigured p => rw [unconfigured_pass]; exact .ite fun _ => .cleared rfl
  | lengthened p n => rw [lengthened_pass]; exact .ite fun hq => .same (hq.1 ▸ rfl)
  | elapse => rw [elapse_pass]; exact .same rfl
  | _ => exact .same rfl

end moves

/-- Settles O56: each move leaves a column as it was, edits it by an operation of the Column Store, or clears it. -/
theorem stepKeepsColumns : Obligations.StepKeepsColumns := by
  refine ⟨⟨rfl, rfl, rfl, rfl, fun c => ⟨rfl, rfl⟩⟩, fun s t h0 h => ?_, fun s t h0 h => ?_⟩
  · refine step_keeps (I := AccountsBalance) (fun s u hm hs q => ?_) h0 h
    obtain hc | hc | hc := hm.columnMoved q
    · rw [hc]; exact hs q
    · exact hc.followedBy (hs q)
    · rw [hc]; exact fun _ => cleared_balanced
  · refine step_keeps (I := ColumnsSound) (fun s u hm hs q => ?_) h0 h
    obtain hc | hc | hc := hm.columnMoved q
    · rw [hc]; exact hs q
    · exact hc.sound (hs q)
    · rw [hc]; exact cleared_sound

end Sys2Proof.Machine

/-! What every step keeps of the estimates (R72, R75, R78), the alarm records and the pass states (R150 to R152, R162). -/

namespace Sys2Proof.Machine

/-! ### What a write of a stored field leaves of the tables -/

section tables

variable {tb : Tables} {n : Nat} {f : TableField} {q : PassId}

@[simp] theorem Tables.write_marks : (tb.write n f).marks = tb.marks := by
  unfold Tables.write
  split <;> rfl

theorem Tables.write_params_of_param (p : PassId) (sel : ParamSel) :
    (tb.write n (.param p sel)).params = tb.params.set p ((tb.params.get p).write n sel) := rfl

theorem Tables.write_params_of_ne (h : ∀ p sel, f ≠ .param p sel) : (tb.write n f).params = tb.params := by
  unfold Tables.write
  split
  case h_7 p sel => exact absurd rfl (h p sel)
  all_goals rfl

/-- A write of any parameter but L leaves L. -/
theorem PassParams.write_len {pr : PassParams} {sel : ParamSel} (h : sel ≠ .len) : (pr.write n sel).len = pr.len := by
  unfold PassParams.write
  split
  case h_2 => exact absurd rfl h
  all_goals rfl

theorem PassParams.write_configured {pr : PassParams} {sel : ParamSel} (h : sel ≠ .configured) :
    (pr.write n sel).configured = pr.configured := by
  unfold PassParams.write
  split
  case h_1 => exact absurd rfl h
  all_goals rfl

/-- A field that the plain write row is for is neither L nor Configured. -/
theorem write_plain_params (h : f.isParticular = false ∨ (∃ p t, f = .grizzly p t) ∨ f = .device .silenceTime) :
    ((tb.write n f).params.get q).len = (tb.params.get q).len
      ∧ ((tb.write n f).params.get q).configured = (tb.params.get q).configured := by
  by_cases hp : ∃ p sel, f = .param p sel
  · obtain ⟨p, sel, rfl⟩ := hp
    have hsel : sel ≠ .len ∧ sel ≠ .configured := by
      obtain h | ⟨_, _, h⟩ | h := h
      · constructor <;> rintro rfl <;> cases h
      · cases h
      · cases h
    rw [Tables.write_params_of_param, Quad.get_set]
    split
    · rename_i hq
      subst hq
      exact ⟨PassParams.write_len hsel.1, PassParams.write_configured hsel.2⟩
    · exact ⟨rfl, rfl⟩
  · rw [Tables.write_params_of_ne fun p sel hf => hp ⟨p, sel, hf⟩]
    exact ⟨rfl, rfl⟩

end tables

/-! ### The parameters and marks after the moves that write them -/

section stored

variable {s : State} {p : PassId}

theorem configured_params (q : PassId) :
    (s.configured p).params q = if q = p then { s.params p with configured := true } else s.params q :=
  Quad.get_set _ p q _

theorem unconfigured_params (q : PassId) :
    (s.unconfigured p).params q = if q = p then { s.params p with configured := false } else s.params q :=
  Quad.get_set _ p q _

theorem lengthened_tables (n : Int) :
    (s.lengthened p n).tables = s.tables.write n.toNat (.param p .len) := by
  unfold State.lengthened
  simp only
  split <;> rfl

theorem lengthened_params (n : Int) (q : PassId) :
    (s.lengthened p n).params q = if q = p then { s.params p with len := n.toNat } else s.params q := by
  rw [State.params, lengthened_tables]
  exact Quad.get_set _ p q _

theorem isolated_marks (q : PassId) :
    (s.isolated p).tables.marks.get q = if q = p then true else s.tables.marks.get q := Quad.get_set _ p q _

theorem restored_marks (q : PassId) :
    (s.restored p).tables.marks.get q = if q = p then false else s.tables.marks.get q := Quad.get_set _ p q _

theorem configured_marks (q : PassId) :
    (s.configured p).tables.marks.get q = if q = p then true else s.tables.marks.get q := Quad.get_set _ p q _

theorem unconfigured_marks (q : PassId) :
    (s.unconfigured p).tables.marks.get q = if q = p then false else s.tables.marks.get q := Quad.get_set _ p q _

end stored

/-! ### Estimates (R72, R75, R78) -/

section estimates

variable {s u : State} {x y : Pass} {pr : PassParams} {len : Nat}

/-- The figures of an estimate that the law of R72, R75 and R78 reads are those of another. -/
theorem estimateSound_of_same (h : estimateSound len x) (h1 : y.est.h = x.est.h) (h2 : y.est.hc = x.est.hc)
    (h3 : y.est.hs = x.est.hs) (h4 : y.est.band = x.est.band) (h5 : y.mode = .unconfigured → x.mode = .unconfigured) :
    estimateSound len y := by
  obtain ⟨k0, k1, k2, k3, k4, k5, k6⟩ := h
  rw [estimateSound, h1, h2, h3, h4]
  exact ⟨k0, k1, k2, k3, k4, k5, fun h => k6 (h5 h)⟩

/-- R77, R78: an estimate at 0 and EMPTY. -/
theorem estimateSound_of_flat (hl : 0 < len) (h1 : x.est.h = 0) (h2 : x.est.hc = 0) (h3 : x.est.hs = 0)
    (h4 : x.est.band = .empty) : estimateSound len x := by
  rw [estimateSound, h1, h2, h3, h4]
  exact ⟨hl, Nat.zero_le _, Nat.zero_le _, Nat.zero_le _, by simp, by simp; omega, fun _ => ⟨rfl, rfl, rfl⟩⟩

theorem findings_hs_le {o u : Bool} {n : Nat} (h : (findings pr x o u).hs = some n) : n ≤ pr.len := by
  cases hu : usableSample x.est with
  | none => rw [findings_of_unusable hu] at h; cases h
  | some sm =>
    rw [findings_of_usable hu] at h
    cases h
    exact sensorHeight_le

/-- R72, R75: the figures that an evaluation stores. -/
theorem stored_estimateSound {o u : Bool} (h : estimateSound pr.len x) (hm : x.mode ≠ .unconfigured) :
    estimateSound pr.len
      { x with est := (x.est.record (findings pr x o u).causes).store pr (findings pr x o u) } := by
  obtain ⟨k0, k1, k2, k3, -, -, -⟩ := h
  have hh : ((findings pr x o u).h.getD x.est.h) ≤ pr.len := by
    cases hf : (findings pr x o u).h with
    | none => exact k1
    | some n => exact findings_h_le hf
  have hhs : ((findings pr x o u).hs.getD x.est.hs) ≤ pr.len := by
    cases hf : (findings pr x o u).hs with
    | none => exact k3
    | some n => exact findings_hs_le hf
  refine ⟨k0, hh, ?_, hhs, updatedBand_eq_empty_iff hh, updatedBand_eq_full_iff k0 hh, fun h => absurd h hm⟩
  show (findings pr x o u).hc ≤ pr.len
  rw [findings_hc]
  exact columnHeight_le

theorem PassEdit.estimateSound (h : PassEdit pr x y) (hx : estimateSound pr.len x) :
    Sys2Proof.Machine.estimateSound pr.len y := by
  cases h with
  | stored o u hm _ => exact stored_estimateSound hx hm
  | alert => exact estimateSound_of_same hx rfl rfl rfl rfl nofun
  | acknowledged => exact estimateSound_of_same hx rfl rfl rfl rfl nofun
  | reset =>
    refine estimateSound_of_same hx rfl rfl rfl rfl fun h => ?_
    simp only at h
    split at h <;> cases h
  | _ => exact estimateSound_of_same hx rfl rfl rfl rfl id

theorem clearedPass_estimateSound (hl : 0 < len) (m : PassState) : estimateSound len (clearedPass m) :=
  estimateSound_of_flat hl rfl rfl rfl rfl

theorem restartedPass_estimateSound (hl : 0 < len) (b k : Bool) : estimateSound len (restartedPass b k) := by
  unfold restartedPass
  split_ifs <;> exact estimateSound_of_flat hl rfl rfl rfl rfl

/-- R77: a pass out of service stands at 0 after a write of L. -/
theorem lengthened_estimateSound {p : PassId} {n : Int} (hm : (s.pass p).mode.inService = false) (hn : 100 ≤ n)
    (h : estimateSound len (s.pass p)) :
    estimateSound n.toNat (if (s.pass p).mode = .isolated then (s.pass p).flattened else s.pass p) := by
  have hl : 0 < n.toNat := by omega
  split
  · exact estimateSound_of_flat hl rfl rfl rfl rfl
  · rename_i hi
    obtain ⟨-, -, -, -, kempty, -, kzero⟩ := h
    have hu : (s.pass p).mode = .unconfigured := by
      by_contra hu
      exact hi (inService_isolated hm hu)
    obtain ⟨k1, k2, k3⟩ := kzero hu
    exact estimateSound_of_flat hl k1 k2 k3 (kempty.mpr k1)

theorem Move.estimatesSound (h : Move s u) (hs : EstimatesSound s) : EstimatesSound u := by
  intro q
  have hq := hs q
  cases h with
  | edit p x hx =>
    rw [State.setPass_params, State.setPass_pass]
    split
    · rename_i hp; subst hp; exact hx.estimateSound hq
    · exact hq
  | restarted cause => rw [restarted_pass]; exact restartedPass_estimateSound hq.1 _ _
  | tripped p c tel =>
    rw [tripped_pass]
    split
    · rename_i hp; subst hp; exact estimateSound_of_same hq rfl rfl rfl rfl nofun
    · exact hq
  | isolated p =>
    rw [isolated_pass]
    split
    · rename_i hp; subst hp; exact estimateSound_of_same hq rfl rfl rfl rfl nofun
    · exact hq
  | restored p =>
    rw [restored_pass]
    split
    · rename_i hp; subst hp; exact estimateSound_of_same hq rfl rfl rfl rfl nofun
    · exact hq
  | configured p =>
    rw [configured_params, configured_pass]
    split
    · rename_i hp; subst hp; exact estimateSound_of_same hq rfl rfl rfl rfl nofun
    · exact hq
  | unconfigured p =>
    rw [unconfigured_params, unconfigured_pass]
    split
    · rename_i hp; subst hp; exact clearedPass_estimateSound hq.1 _
    · exact hq
  | lengthened p n hm hr =>
    have hn : 100 ≤ n := by
      have : within n (100, 6000) = true := hr
      simp only [within, decide_eq_true_eq] at this
      exact this.1
    rw [lengthened_params, lengthened_pass]
    by_cases hp : q = p
    · subst hp
      simp only [true_and, if_true]
      exact lengthened_estimateSound hm hn hq
    · simp only [hp, false_and, if_false]
      exact hq
  | store f n _ _ hf =>
    have hlen : ((s.store f n).params q).len = (s.params q).len := (write_plain_params hf).1
    rw [hlen]
    exact hq
  | elapse => rw [elapse_pass]; exact estimateSound_of_same hq rfl rfl rfl rfl id
  | _ => exact hq

end estimates

/-- Settles O57: what an evaluation stores lies in 0..L with the band at it, and L moves out of service alone. -/
theorem stepKeepsEstimates : Obligations.StepKeepsEstimates :=
  fun _ _ h0 h => step_keeps (fun _ _ hm => hm.estimatesSound) h0 h

/-! ### Alarm records (R150 to R152) -/

section alarms

variable {s u : State} {x y : Pass} {pr : PassParams} {c : Cause} {l : List Cause}

theorem Cause.code_injective : Function.Injective Cause.code := by
  intro a b h
  cases a <;> cases b <;> first | rfl | cases h

theorem mem_insertCause {d : Cause} : d ∈ insertCause c l ↔ d = c ∨ d ∈ l := by
  induction l with
  | nil => simp [insertCause]
  | cons e es ih =>
    unfold insertCause
    split
    · simp
    · split
      · rename_i h; subst h; simp
      · simp only [List.mem_cons, ih]; tauto

/-- R152: a code joins a set kept in code order at its place. -/
theorem insertCause_sorted (h : (l.map Cause.code).Pairwise (· < ·)) :
    ((insertCause c l).map Cause.code).Pairwise (· < ·) := by
  induction l with
  | nil => simp [insertCause]
  | cons e es ih =>
    obtain ⟨hhead, htail⟩ := List.pairwise_cons.mp h
    unfold insertCause
    split
    · rename_i hlt
      refine List.pairwise_cons.mpr ⟨?_, h⟩
      intro k hk
      rcases List.mem_cons.mp hk with rfl | hk
      · exact hlt
      · exact hlt.trans (hhead k hk)
    · rename_i hge
      split
      · exact h
      · rename_i hne
        refine List.pairwise_cons.mpr ⟨?_, ih htail⟩
        intro k hk
        obtain ⟨d, hd, rfl⟩ := List.mem_map.mp hk
        rcases mem_insertCause.mp hd with rfl | hd
        · have : d.code ≠ e.code := fun hc => hne (Cause.code_injective hc)
          omega
        · exact hhead _ (List.mem_map_of_mem hd)

/-- R152: a record at level NONE, of a pass that shows none. -/
theorem alarmSound_of_quiet (hl : x.alarm.level = .quiet) (hm : levelOf x.mode = .quiet)
    (hs : (x.alarm.secondary.map Cause.code).Pairwise (· < ·)) : alarmSound x := by
  refine ⟨hl.trans hm.symm, fun h => absurd hl h, fun h => ?_, hs⟩
  rw [h] at hm
  cases hm

theorem join_alarmSound (hx : alarmSound x) (hc : x.mode = .tripped ∨ x.mode = .alert ∧ c.isAlert = true) :
    alarmSound { x with alarm := x.alarm.join c } := by
  obtain ⟨klevel, kprimary, kalert, ksorted⟩ := hx
  unfold AlarmRecord.join
  split
  · exact ⟨klevel, kprimary, kalert, ksorted⟩
  · rename_i hne
    refine ⟨klevel, fun h => ?_, fun h => ⟨(kalert h).1, fun d hd => ?_⟩, insertCause_sorted ksorted⟩
    · obtain ⟨k, hk, hnot⟩ := kprimary h
      refine ⟨k, hk, fun hin => ?_⟩
      rcases mem_insertCause.mp hin with rfl | hin
      · exact hne hk
      · exact hnot hin
    · rcases mem_insertCause.mp hd with rfl | hd
      · obtain h' | h' := hc
        · rw [show x.mode = .alert from h] at h'; cases h'
        · exact h'.2
      · exact (kalert h).2 d hd

/-- R155: a trip over whatever the pass showed; the old codes are alert causes, the new one is not. -/
theorem tripped_alarmSound (hx : alarmSound x) (hc : c.isAlert = false) (now : Word)
    (tel : Option Interrupted) :
    alarmSound { x with mode := .tripped, alarm := raisedAlarm .trip c (secondaryAtTrip x) now x.est tel } := by
  obtain ⟨-, -, kalert, ksorted⟩ := hx
  have hold : (∀ d ∈ secondaryAtTrip x, d.isAlert = true)
      ∧ ((secondaryAtTrip x).map Cause.code).Pairwise (· < ·) := by
    unfold secondaryAtTrip
    split
    · rename_i old hmode hp
      obtain ⟨h1, h2⟩ := kalert hmode
      refine ⟨fun d hd => ?_, insertCause_sorted ksorted⟩
      rcases mem_insertCause.mp hd with rfl | hd
      · exact h1 _ hp
      · exact h2 d hd
    · rename_i hmode _
      exact ⟨(kalert hmode).2, ksorted⟩
    · exact ⟨nofun, .nil⟩
  refine ⟨rfl, fun _ => ⟨c, rfl, fun hin => ?_⟩, nofun, hold.2⟩
  have := hold.1 c hin
  rw [hc] at this
  cases this

theorem PassEdit.alarmSound (h : PassEdit pr x y) (hx : alarmSound x) : Sys2Proof.Machine.alarmSound y := by
  cases h with
  | join c hc => exact join_alarmSound hx hc
  | alert c now tel _ hc =>
    exact ⟨rfl, fun _ => ⟨c, rfl, List.not_mem_nil⟩,
      fun _ => ⟨fun d hd => Option.some.inj hd ▸ hc, fun d hd => absurd hd List.not_mem_nil⟩, .nil⟩
  | acknowledged => exact alarmSound_of_quiet rfl rfl hx.2.2.2
  | reset =>
    refine alarmSound_of_quiet rfl ?_ hx.2.2.2
    dsimp only
    split <;> rfl
  | _ => exact hx

theorem restartedPass_alarmSound (b k : Bool) : alarmSound (restartedPass b k) := by
  unfold restartedPass
  split_ifs
  · exact alarmSound_of_quiet rfl rfl .nil
  · exact alarmSound_of_quiet rfl rfl .nil
  · exact ⟨rfl, fun _ => ⟨.restart, rfl, List.not_mem_nil⟩,
      fun _ => ⟨fun d hd => Option.some.inj hd ▸ rfl, fun d hd => absurd hd List.not_mem_nil⟩, .nil⟩

theorem Move.alarmsSound (h : Move s u) (hs : AlarmsSound s) : AlarmsSound u := by
  intro q
  have hq := hs q
  cases h with
  | edit p x hx =>
    rw [State.setPass_pass]
    split
    · rename_i hp; subst hp; exact hx.alarmSound hq
    · exact hq
  | restarted cause => rw [restarted_pass]; exact restartedPass_alarmSound _ _
  | tripped p c tel _ hc =>
    rw [tripped_pass]
    split
    · rename_i hp; subst hp; exact tripped_alarmSound hq hc _ _
    · exact hq
  | isolated p =>
    rw [isolated_pass]
    split
    · rename_i hp; subst hp; exact alarmSound_of_quiet rfl rfl hq.2.2.2
    · exact hq
  | restored p hm =>
    rw [restored_pass]
    split
    · rename_i hp; subst hp; exact alarmSound_of_quiet (hq.1.trans (hm ▸ rfl)) rfl hq.2.2.2
    · exact hq
  | configured p hm =>
    rw [configured_pass]
    split
    · rename_i hp; subst hp; exact alarmSound_of_quiet (hq.1.trans (hm ▸ rfl)) rfl hq.2.2.2
    · exact hq
  | unconfigured p =>
    rw [unconfigured_pass]
    split
    · exact alarmSound_of_quiet rfl rfl .nil
    · exact hq
  | lengthened p n =>
    rw [lengthened_pass]
    split
    · rename_i hp; obtain ⟨rfl, -⟩ := hp; exact hq
    · exact hq
  | elapse => rw [elapse_pass]; exact hq
  | _ => exact hq

end alarms

/-! ### Pass states, Configured settings and isolation marks (R150, R162) -/

section states

variable {s u : State} {x y : Pass} {pr : PassParams}

/-- R150, R162: the law of `PassStatesStored` for one pass. -/
def stateStored (m : PassState) (configured mark : Bool) : Prop :=
  (m = .unconfigured ↔ configured = false) ∧ (m = .isolated ↔ configured = true ∧ mark = true)

/-- An edit takes a pass neither in nor out of UNCONFIGURED and ISOLATED. -/
theorem PassEdit.mode_iff (h : PassEdit pr x y) :
    (y.mode = .unconfigured ↔ x.mode = .unconfigured) ∧ (y.mode = .isolated ↔ x.mode = .isolated) := by
  cases h with
  | alert _ _ _ hm => simp [hm]
  | acknowledged hm => simp [hm]
  | reset hm => by_cases hi : x.mode = .isolated <;> simp [hi, hm]
  | _ => exact ⟨Iff.rfl, Iff.rfl⟩

theorem restartedPass_stored (b k : Bool) : stateStored (restartedPass b k).mode b k := by
  cases b <;> cases k <;> simp [restartedPass, stateStored, clearedPass]

theorem Move.passStatesStored (h : Move s u) (hs : PassStatesStored s) : PassStatesStored u := by
  intro q
  have hq : stateStored (s.pass q).mode (s.params q).configured (s.tables.marks.get q) := hs q
  show stateStored (u.pass q).mode (u.params q).configured (u.tables.marks.get q)
  cases h with
  | edit p x hx =>
    rw [State.setPass_params, State.setPass_pass]
    split
    · rename_i hp
      subst hp
      obtain ⟨h1, h2⟩ := hx.mode_iff
      exact ⟨h1.trans hq.1, h2.trans hq.2⟩
    · exact hq
  | restarted cause => rw [restarted_pass]; exact restartedPass_stored _ _
  | tripped p c tel hl =>
    rw [tripped_pass]
    split
    · rename_i hp
      subst hp
      have hu : (s.pass q).mode ≠ .unconfigured := fun h => by rw [h] at hl; cases hl
      have hi : (s.pass q).mode ≠ .isolated := fun h => by rw [h] at hl; cases hl
      show stateStored .tripped (s.params q).configured (s.tables.marks.get q)
      exact ⟨by simpa [hu] using hq.1, by simpa [hi] using hq.2⟩
    · exact hq
  | isolated p hi =>
    rw [isolated_pass, isolated_marks]
    split
    · rename_i hp
      subst hp
      have hu : (s.pass q).mode ≠ .unconfigured := fun h => by rw [h] at hi; cases hi
      have hc : (s.params q).configured = true := by simpa [hu] using hq.1
      show stateStored .isolated (s.params q).configured true
      simp [stateStored, hc]
    · exact hq
  | restored p hm =>
    rw [restored_pass, restored_marks]
    split
    · rename_i hp
      subst hp
      have hc : (s.params q).configured = true := (hq.2.mp hm).1
      show stateStored .running (s.params q).configured false
      simp [stateStored, hc]
    · exact hq
  | configured p =>
    rw [configured_pass, configured_params, configured_marks]
    split
    · simp [stateStored]
    · exact hq
  | unconfigured p =>
    rw [unconfigured_pass, unconfigured_params, unconfigured_marks]
    split
    · simp [stateStored, clearedPass]
    · exact hq
  | lengthened p n =>
    have hmode : ((s.lengthened p n).pass q).mode = (s.pass q).mode := by
      rw [lengthened_pass]
      split
      · rename_i hp; obtain ⟨rfl, -⟩ := hp; rfl
      · rfl
    have hconf : ((s.lengthened p n).params q).configured = (s.params q).configured := by
      rw [lengthened_params]
      split
      · rename_i hp; subst hp; rfl
      · rfl
    rw [hmode, hconf, lengthened_tables, Tables.write_marks]
    exact hq
  | store f n _ _ hf =>
    have hconf : ((s.store f n).params q).configured = (s.params q).configured := (write_plain_params hf).2
    rw [hconf, State.store_tables, Tables.write_marks]
    exact hq
  | elapse => rw [elapse_pass]; exact hq
  | _ => exact hq

end states

/-- Settles O60: causes raise and join as R152 says, and a pass enters or leaves UNCONFIGURED and ISOLATED with its
stored setting and mark. -/
theorem stepKeepsPassStates : Obligations.StepKeepsPassStates :=
  ⟨fun _ _ h0 h => step_keeps (fun _ _ hm => hm.alarmsSound) h0 h,
    fun _ _ h0 h => step_keeps (fun _ _ hm => hm.passStatesStored) h0 h⟩

end Sys2Proof.Machine

/-! The acts of the traffic taken apart into elementary ones (`Prim`), and what every step keeps of the queues, the
notice list and the Hold Pool (R5, R10, R126, R164, R165). -/

namespace Sys2Proof.Machine

/-! ### Placing into a queue (R10, R11) -/

section enqueue

variable {q x : Queued} {l : List Queued}

theorem length_replaceFirst {α : Type} (f : α → Bool) (x : α) (l : List α) : (replaceFirst f x l).length = l.length := by
  induction l with
  | nil => rfl
  | cons y ys ih => unfold replaceFirst; split <;> simp [ih]

theorem mem_replaceFirst {α : Type} {f : α → Bool} {x y : α} {l : List α} (h : y ∈ replaceFirst f x l) :
    y = x ∨ y ∈ l := by
  induction l with
  | nil => cases h
  | cons z zs ih =>
    unfold replaceFirst at h
    split at h
    · rcases List.mem_cons.mp h with h | h
      · exact .inl h
      · exact .inr (List.mem_cons_of_mem _ h)
    · rcases List.mem_cons.mp h with h | h
      · exact .inr (h ▸ List.mem_cons_self)
      · exact (ih h).imp_right (List.mem_cons_of_mem _)

theorem length_displace_le (fs : List (Queued → Bool)) : (displace q fs l).length ≤ l.length := by
  induction fs with
  | nil => exact Nat.le_refl _
  | cons f fs ih =>
    unfold displace
    split
    · rename_i h
      obtain ⟨y, hy, hf⟩ := List.any_eq_true.mp h
      have := List.length_pos_of_mem hy
      simp only [List.length_append, List.length_eraseP_of_mem hy hf, List.length_singleton]
      omega
    · exact ih

theorem mem_displace {fs : List (Queued → Bool)} (h : x ∈ displace q fs l) : x = q ∨ x ∈ l := by
  induction fs with
  | nil => exact .inr h
  | cons f fs ih =>
    unfold displace at h
    split at h
    · rcases List.mem_append.mp h with h | h
      · exact .inr (List.mem_of_mem_eraseP h)
      · exact .inl (List.mem_singleton.mp h)
    · exact ih h

theorem length_enqueueFull_le : (enqueueFull q l).1.length ≤ l.length := by
  unfold enqueueFull
  split
  · split
    · exact (length_replaceFirst _ _ _).le
    · exact Nat.le_refl _
  all_goals exact length_displace_le _

theorem length_enqueue_le (h : l.length ≤ Config.txCapacity) : (enqueue q l).1.length ≤ Config.txCapacity := by
  unfold enqueue
  split
  · simp only [List.length_append, List.length_singleton]; omega
  · exact length_enqueueFull_le.trans h

theorem mem_enqueue (h : x ∈ (enqueue q l).1) : x = q ∨ x ∈ l := by
  unfold enqueue at h
  split at h
  · rcases List.mem_append.mp h with h | h
    · exact .inr h
    · exact .inl (List.mem_singleton.mp h)
  · unfold enqueueFull at h
    split at h
    · split at h
      · exact mem_replaceFirst h
      · exact .inr h
    all_goals exact mem_displace h

end enqueue

/-! ### The Control Port side (R13, R14, R165) -/

section control

variable {tb : Tables} {dev : DeviceParams} {c : ControlSide} {q : Queued} {src : NoticeSource} {cls : NoticeClass}
variable {times n : Nat} {P : ControlSide → Prop}

/-- A property that choosing a queued telegram and sending a notice keep is kept by the arbiter. -/
theorem ControlSide.arbitrate_keeps (hq : ∀ f p, c.port.choose f = some p → P { c with port := p })
    (hn : ∀ f c', c.sendNotice dev f = some c' → P c') (h : P c) : P (c.arbitrate dev) := by
  unfold ControlSide.arbitrate
  split
  · exact h
  · split
    · exact hq _ _ ‹_›
    · split
      · exact hn _ _ ‹_›
      · split
        · exact hq _ _ ‹_›
        · cases hs : c.sendNotice dev fun _ => true with
          | none => exact h
          | some c' => exact hn _ _ hs

theorem Port.choose_eq_some {f : Queued → Bool} {p p' : Port} (h : p.choose f = some p') :
    ∃ x ∈ p.queue, f x = true ∧ p' =
      { p with queue := p.queue.eraseP f, sending := some { tel := x.tel, endsInReset := x.endsInReset } } := by
  obtain ⟨x, hx, rfl⟩ := Option.map_eq_some_iff.mp h
  exact ⟨x, List.mem_of_find?_eq_some hx, List.find?_some hx, rfl⟩

theorem ControlSide.sendNotice_eq_some {f : NoticeEntry → Bool} {c' : ControlSide} (h : c.sendNotice dev f = some c') :
    ∃ e ∈ c.notices, f e = true ∧ c' =
      { port := { c.port with sending := some { tel := noticeTelegram dev e, endsInReset := false } }
        notices := c.notices.eraseP f } := by
  obtain ⟨x, hx, rfl⟩ := Option.map_eq_some_iff.mp h
  exact ⟨x, List.mem_of_find?_eq_some hx, List.find?_some hx, rfl⟩

/-- R10: the bounds of the Control Port's queue. -/
def ControlSide.bounded (c : ControlSide) : Prop :=
  c.port.queue.length ≤ Config.txCapacity ∧ ∀ a, ∀ q ∈ c.port.queue, q.isActionOf a = false

/-- R5: what the Control Port holds passes its check. -/
def ControlSide.checked (c : ControlSide) : Prop :=
  (∀ q ∈ c.port.queue, checkHolds q.tel = true) ∧ ∀ x, c.port.sending = some x → checkHolds x.tel = true

/-- R164, R165: the notice list. -/
def ControlSide.noticed (c : ControlSide) : Prop :=
  (c.notices.map fun e => (e.source, e.cls)).Nodup
    ∧ ∀ e ∈ c.notices, (1 ≤ e.count ∧ e.count ≤ Config.countCeiling) ∧ sourceFits e.source e.cls

theorem ControlSide.bounded_of_choose {f : Queued → Bool} {p : Port} (h : c.bounded) (hp : c.port.choose f = some p) :
    ({ c with port := p } : ControlSide).bounded := by
  obtain ⟨x, -, -, rfl⟩ := Port.choose_eq_some hp
  exact ⟨(List.length_eraseP_le).trans h.1, fun a q hq => h.2 a q (List.mem_of_mem_eraseP hq)⟩

theorem ControlSide.checked_of_choose {f : Queued → Bool} {p : Port} (h : c.checked) (hp : c.port.choose f = some p) :
    ({ c with port := p } : ControlSide).checked := by
  obtain ⟨x, hx, -, rfl⟩ := Port.choose_eq_some hp
  exact ⟨fun q hq => h.1 q (List.mem_of_mem_eraseP hq), fun y hy => Option.some.inj hy ▸ h.1 x hx⟩

theorem ControlSide.arbitrate_bounded (h : c.bounded) : (c.arbitrate dev).bounded := by
  refine ControlSide.arbitrate_keeps (fun f p => ControlSide.bounded_of_choose h) (fun f c' hc => ?_) h
  obtain ⟨e, -, -, rfl⟩ := ControlSide.sendNotice_eq_some hc
  exact h

theorem ControlSide.arbitrate_checked (h : c.checked) : (c.arbitrate dev).checked := by
  refine ControlSide.arbitrate_keeps (fun f p => ControlSide.checked_of_choose h) (fun f c' hc => ?_) h
  obtain ⟨e, -, -, rfl⟩ := ControlSide.sendNotice_eq_some hc
  exact ⟨h.1, fun y hy => Option.some.inj hy ▸ checkHolds_noticeTelegram dev e⟩

theorem ControlSide.arbitrate_noticed (h : c.noticed) : (c.arbitrate dev).noticed := by
  refine ControlSide.arbitrate_keeps (fun f p _ => h) (fun f c' hc => ?_) h
  obtain ⟨e, -, -, rfl⟩ := ControlSide.sendNotice_eq_some hc
  exact ⟨h.1.sublist (List.eraseP_sublist.map _), fun e he => h.2 e (List.mem_of_mem_eraseP he)⟩

/-- R165: a raise does nothing, bumps the entry there is, or makes one at the back for the arbiter. -/
theorem ControlSide.raiseMany_cases (tb : Tables) (src : NoticeSource) (cls : NoticeClass) (times n : Nat)
    (c : ControlSide) :
    c.raiseMany tb src cls times n = c
      ∨ c.raiseMany tb src cls times n
          = { c with notices := c.notices.map fun e => if e.isFor src cls then e.bump times n else e }
      ∨ c.notices.any (NoticeEntry.isFor src cls) = false
        ∧ c.raiseMany tb src cls times n = ControlSide.arbitrate tb.device
          { c with notices := c.notices ++
              [{ source := src, cls := cls, priority := (tb.notices.get cls).priority
                 count := min times Config.countCeiling, detail := n }] } := by
  unfold ControlSide.raiseMany
  split
  · exact .inl rfl
  · split
    · exact .inr (.inl rfl)
    · rename_i h
      exact .inr (.inr ⟨by simpa using h, rfl⟩)

theorem ControlSide.raiseMany_bounded (h : c.bounded) : (c.raiseMany tb src cls times n).bounded := by
  obtain e | e | ⟨-, e⟩ := c.raiseMany_cases tb src cls times n <;> rw [e]
  · exact h
  · exact h
  · exact ControlSide.arbitrate_bounded h

theorem ControlSide.raiseMany_checked (h : c.checked) : (c.raiseMany tb src cls times n).checked := by
  obtain e | e | ⟨-, e⟩ := c.raiseMany_cases tb src cls times n <;> rw [e]
  · exact h
  · exact h
  · exact ControlSide.arbitrate_checked h

theorem NoticeEntry.isFor_iff {e : NoticeEntry} : e.isFor src cls = true ↔ e.source = src ∧ e.cls = cls := by
  simp [NoticeEntry.isFor]

theorem ControlSide.raiseMany_noticed (hf : sourceFits src cls) (ht : 0 < times) (h : c.noticed) :
    (c.raiseMany tb src cls times n).noticed := by
  obtain e | e | ⟨hnone, e⟩ := c.raiseMany_cases tb src cls times n <;> rw [e]
  · exact h
  · constructor
    · have hkeys : (c.notices.map fun e => if e.isFor src cls then e.bump times n else e).map
          (fun e => (e.source, e.cls)) = c.notices.map fun e => (e.source, e.cls) := by
        rw [List.map_map]
        refine List.map_congr_left fun e _ => ?_
        simp only [Function.comp]
        split <;> rfl
      simp only [hkeys]
      exact h.1
    · intro e he
      obtain ⟨d, hd, rfl⟩ := List.mem_map.mp he
      obtain ⟨⟨h1, h2⟩, h3⟩ := h.2 d hd
      split
      · refine ⟨?_, h3⟩
        simp only [NoticeEntry.bump, Config.countCeiling] at *
        omega
      · exact ⟨⟨h1, h2⟩, h3⟩
  · refine ControlSide.arbitrate_noticed ⟨?_, ?_⟩
    · rw [List.map_append, List.map_singleton]
      refine List.nodup_append.mpr ⟨h.1, List.nodup_singleton _, ?_⟩
      intro a ha b hb
      obtain rfl := List.mem_singleton.mp hb
      rintro rfl
      obtain ⟨e, he, hk⟩ := List.mem_map.mp ha
      have := List.any_eq_false.mp hnone e he
      exact this (NoticeEntry.isFor_iff.mpr ⟨congrArg Prod.fst hk, congrArg Prod.snd hk⟩)
    · intro e he
      rcases List.mem_append.mp he with he | he
      · exact h.2 e he
      · obtain rfl := List.mem_singleton.mp he
        refine ⟨?_, hf⟩
        simp only [Config.countCeiling]
        omega

theorem sourceFits_overrun : sourceFits .device .overrun := by simp [sourceFits, NoticeClass.ofDevice]

theorem ControlSide.place_bounded (hq : ∀ a, q.isActionOf a = false) (h : c.bounded) : (c.place tb q).bounded := by
  have hplaced : ({ c with
      port := { c.port with
        queue := (enqueue q c.port.queue).1, overrun := c.port.overrun || (enqueue q c.port.queue).2 } } :
      ControlSide).bounded := by
    refine ⟨length_enqueue_le h.1, fun a x hx => ?_⟩
    rcases mem_enqueue hx with rfl | hx
    · exact hq a
    · exact h.2 a x hx
  unfold ControlSide.place
  simp only
  split
  · exact ControlSide.arbitrate_bounded (ControlSide.raiseMany_bounded hplaced)
  · exact ControlSide.arbitrate_bounded hplaced

theorem ControlSide.place_checked (hq : checkHolds q.tel = true) (h : c.checked) : (c.place tb q).checked := by
  have hplaced : ({ c with
      port := { c.port with
        queue := (enqueue q c.port.queue).1, overrun := c.port.overrun || (enqueue q c.port.queue).2 } } :
      ControlSide).checked := by
    refine ⟨fun x hx => ?_, h.2⟩
    rcases mem_enqueue hx with rfl | hx
    · exact hq
    · exact h.1 x hx
  unfold ControlSide.place
  simp only
  split
  · exact ControlSide.arbitrate_checked (ControlSide.raiseMany_checked hplaced)
  · exact ControlSide.arbitrate_checked hplaced

theorem ControlSide.place_noticed (h : c.noticed) : (c.place tb q).noticed := by
  unfold ControlSide.place
  simp only
  split
  · exact ControlSide.arbitrate_noticed (ControlSide.raiseMany_noticed sourceFits_overrun Nat.one_pos h)
  · exact ControlSide.arbitrate_noticed h

end control

/-! ### The Field Port side (R13, R15) -/

section field

variable {tb : Tables} {q x : Queued} {l rest : List Queued} {tr : Traffic} {a : Actuator}

theorem mem_of_fieldChoice (h : fieldChoice l = some (q, rest)) : q ∈ l ∧ rest.Sublist l := by
  unfold fieldChoice at h
  split at h
  · rename_i y hy
    cases h
    exact ⟨List.mem_of_find?_eq_some hy, List.eraseP_sublist⟩
  · split at h
    · cases h
    · cases h
      exact ⟨List.mem_cons_self, List.sublist_cons_self _ _⟩

/-- A placement at the Field Port leaves of the Control Port side what an OVERRUN notice leaves. -/
theorem Traffic.placeField_ctl :
    (tr.placeField tb q).ctl =
      if (enqueue q tr.field.queue).2 = true then tr.ctl.raiseOverrun tb 1 else tr.ctl := by
  unfold Traffic.placeField
  simp only [Traffic.fieldArbitrate_ctl]
  split <;> rfl

/-- R5, R10: what the Field Port's queue and line hold. -/
def Port.checked (p : Port) : Prop :=
  (∀ q ∈ p.queue, checkHolds q.tel = true) ∧ ∀ x, p.sending = some x → checkHolds x.tel = true

theorem Traffic.fieldArbitrate_queue_sublist : tr.fieldArbitrate.field.queue.Sublist tr.field.queue := by
  obtain h | ⟨q, rest, -, hc, h⟩ := tr.fieldArbitrate_cases <;> rw [h]
  exact (mem_of_fieldChoice hc).2

theorem Traffic.fieldArbitrate_checked (h : tr.field.checked) : tr.fieldArbitrate.field.checked := by
  obtain e | ⟨q, rest, -, hc, e⟩ := tr.fieldArbitrate_cases <;> rw [e]
  · exact h
  · obtain ⟨hq, hrest⟩ := mem_of_fieldChoice hc
    exact ⟨fun x hx => h.1 x (hrest.subset hx), fun y hy => Option.some.inj hy ▸ h.1 q hq⟩

theorem Traffic.placeField_length (h : tr.field.queue.length ≤ Config.txCapacity) :
    (tr.placeField tb q).field.queue.length ≤ Config.txCapacity := by
  obtain ⟨ctl, e⟩ := Traffic.placeField_eq tb q tr
  rw [e]
  exact Traffic.fieldArbitrate_queue_sublist.length_le.trans (length_enqueue_le h)

theorem Traffic.placeField_checked (hq : checkHolds q.tel = true) (h : tr.field.checked) :
    (tr.placeField tb q).field.checked := by
  obtain ⟨ctl, e⟩ := Traffic.placeField_eq tb q tr
  rw [e]
  refine Traffic.fieldArbitrate_checked ⟨fun x hx => ?_, h.2⟩
  rcases mem_enqueue hx with rfl | hx
  · exact hq
  · exact h.1 x hx

end field

/-! ### Elementary acts -/

/-- The entry is ISSUED (R135). -/
def ActionEntry.isIssued (e : ActionEntry) : Bool := e.isIssuedFor e.actuator

theorem ActionEntry.isIssuedFor_iff {a : Actuator} {e : ActionEntry} :
    e.isIssuedFor a = true ↔ e.actuator = a ∧ ∃ d sent tel, e.state = .issued d sent tel := by
  unfold ActionEntry.isIssuedFor
  split <;> simp [*]

theorem ActionEntry.isWaitingFor_iff {a : Actuator} {e : ActionEntry} :
    e.isWaitingFor a = true ↔ e.actuator = a ∧ e.state = .waiting := by
  unfold ActionEntry.isWaitingFor
  split <;> simp [*]

theorem ActionEntry.isIssued_iff {e : ActionEntry} :
    e.isIssued = true ↔ ∃ d sent tel, e.state = .issued d sent tel := by
  simp [ActionEntry.isIssued, ActionEntry.isIssuedFor_iff]

theorem ActionEntry.isIssued_of_waiting {e : ActionEntry} (h : e.state = .waiting) : e.isIssued = false := by
  simp [ActionEntry.isIssued, ActionEntry.isIssuedFor, h]

/-- R135: no actuator has two ISSUED entries. -/
def IssuedOnce (tr : Traffic) : Prop := ∀ a, (tr.actions.filter (ActionEntry.isIssuedFor a)).length ≤ 1

/-- An elementary act of the traffic, seen with `v`. Where `once` holds, an entry is issued only to an actuator that has
none ISSUED. -/
inductive Prim (v : View) (once : Prop) : Traffic → Traffic → Prop
  | placeControl (tr : Traffic) (q : Queued) : (∀ a, q.isActionOf a = false) → checkHolds q.tel = true →
      Prim v once tr (tr.placeControl v.tables q)
  | placeField (tr : Traffic) (q : Queued) : (∀ a, q.isActionOf a = false) → checkHolds q.tel = true →
      Prim v once tr (tr.placeField v.tables q)
  | raise (tr : Traffic) (src : NoticeSource) (cls : NoticeClass) (times n : Nat) : sourceFits src cls → 0 < times →
      Prim v once tr (tr.raiseMany v.tables src cls times n)
  | freeControl (tr : Traffic) :
      Prim v once tr
        { tr with
          ctl := ControlSide.arbitrate v.tables.device { tr.ctl with port := { tr.ctl.port with sending := none } } }
  | freeField (tr : Traffic) :
      Prim v once tr (Traffic.fieldArbitrate { tr with field := { tr.field with sending := none } })
  | clearOverruns (tr : Traffic) :
      Prim v once tr
        { tr with
          ctl := { tr.ctl with port := { tr.ctl.port with overrun := false } }
          field := { tr.field with overrun := false } }
  /-- The oldest WAITING entry of an actuator is issued (R138). -/
  | issue (tr : Traffic) (a : Actuator) (n : Nat) : (once → ∀ e ∈ tr.actions, e.isIssuedFor a = false) →
      (∀ e, tr.actions.find? (ActionEntry.isWaitingFor a) = some e → e.direction = .nonSafe → placeable v a n) →
      Prim v once tr (tr.issue v a n)
  /-- A safe command joins the ISSUED entry (R145). -/
  | attach (tr : Traffic) (a : Actuator) (e : ActionEntry) : issuedEntry tr a = some e →
      Prim v once tr (tr.attach v a e)
  | removeIssued (tr : Traffic) (a : Actuator) : Prim v once tr (tr.removeIssued a)
  /-- WAITING entries leave. -/
  | dropWaiting (tr : Traffic) (l : List ActionEntry) : l.Sublist tr.actions →
      l.filter ActionEntry.isIssued = tr.actions.filter ActionEntry.isIssued → Prim v once tr { tr with actions := l }
  /-- A WAITING entry joins at the back. -/
  | join (tr : Traffic) (e : ActionEntry) (n : Byte) : e.state = .waiting →
      Prim v once tr { tr with actions := tr.actions ++ [e], tagCounter := n }
  | history (tr : Traffic) (h : Quad (Duo GateHistory)) : Prim v once tr { tr with history := h }
  /-- Held entries leave, or change in what they are held for. -/
  | pool (tr : Traffic) (l : List HeldEntry) :
      (l.map HeldEntry.actuator).Sublist (tr.pool.map HeldEntry.actuator) → Prim v once tr { tr with pool := l }
  | park (tr : Traffic) (e : HeldEntry) : (∀ x ∈ tr.pool, x.actuator ≠ e.actuator) →
      tr.pool.length < Config.poolCapacity → Prim v once tr { tr with pool := tr.pool ++ [e] }

/-- A run of elementary acts. -/
def Prims (v : View) (once : Prop) : Traffic → Traffic → Prop := Relation.ReflTransGen (Prim v once)

end Sys2Proof.Machine

/-! The verdict procedure (R113 to R118): which outcome its five checks give, and with which reason. -/

namespace Sys2Proof.Machine

section verdict

variable {v : View} {tr : Traffic} {a : Actuator} {n : Nat} {sev : Severity} {l m : List (Severity × Reason)}

/-! ### The most severe outcome (R115) -/

theorem firstOf_append : firstOf sev (l ++ m) = (firstOf sev l).or (firstOf sev m) := List.find?_append

@[simp] theorem firstOf_nil : firstOf sev [] = none := rfl

theorem firstOf_severity {x : Severity × Reason} (h : firstOf sev l = some x) : x.1 = sev := by
  simpa [firstOf] using List.find?_some h

theorem mostSevere_eq :
    mostSevere l =
      (firstOf .refuse l).getD ((firstOf .hold l).getD ((firstOf .clamp l).getD (.pass, .noReason))) := by
  unfold mostSevere
  cases firstOf .refuse l <;> cases firstOf .hold l <;> rfl

/-! ### What each check gives (R115, R116) -/

theorem firstOf_stateCheck :
    firstOf sev (stateCheck v a) =
      if (v.passes.get a.pass).mode.isLive = false ∧ sev = .refuse then some (.refuse, .passState) else none := by
  unfold stateCheck
  cases (v.passes.get a.pass).mode.isLive <;> cases sev <;> rfl

theorem firstOf_tableCheck :
    firstOf sev (tableCheck v a) =
      if interlockCell v a = some .refuse ∧ sev = .refuse then some (.refuse, .table)
      else if interlockCell v a = some .hold ∧ sev = .hold then some (.hold, .table) else none := by
  unfold tableCheck
  obtain _ | _ | _ | _ | _ := interlockCell v a <;> cases sev <;> rfl

/-- R115: an opening limit of 0 stands against the opening of a gate. -/
def tooWet (v : View) (a : Actuator) : Prop := ∃ p c, a = .gate p c ∧ openingLimit v p = 0

theorem firstOf_wetnessCheck [Decidable (tooWet v a)] :
    firstOf sev (wetnessCheck v a) = if tooWet v a ∧ sev = .refuse then some (.refuse, .wet) else none := by
  cases a with
  | gate p c =>
    have hw : tooWet v (.gate p c) ↔ openingLimit v p = 0 := by simp [tooWet]
    simp only [wetnessCheck, hw]
    by_cases h : openingLimit v p = 0 <;> cases sev <;> simp [h, firstOf]
  | signal p t => simp [wetnessCheck, tooWet]
  | breaker p t => simp [wetnessCheck, tooWet]

/-- The reason of the first precondition not met (R116). -/
def unmetReason (v : View) (tr : Traffic) : Actuator → Reason
  | .gate p c => if ((v.passes.get p).chutes.get c).wagon ≠ .present then .wagon else .notice
  | .signal p t =>
    if ((v.passes.get p).tips.get t).breaker ≠ .parked ∨ hasNonSafe tr (.breaker p t) = true then .breaker else .grizzly
  | .breaker _ _ => .signal

theorem firstOf_preconditionCheck [Decidable (preconditionsMet v tr a)] :
    firstOf sev (preconditionCheck v tr a) =
      if ¬preconditionsMet v tr a ∧ sev = .hold then some (.hold, unmetReason v tr a) else none := by
  cases a with
  | gate p c =>
    have hmet : preconditionsMet v tr (.gate p c) ↔ ((v.passes.get p).chutes.get c).wagon = .present
        ∧ ∀ n, (v.passes.get p).slot = some n → n.kind ≠ .stopDraw := Iff.rfl
    simp only [hmet, preconditionCheck, unmetReason]
    cases hs : (v.passes.get p).slot with
    | none =>
      by_cases hw : ((v.passes.get p).chutes.get c).wagon = .present <;> cases sev <;> simp [hw, firstOf]
    | some k =>
      by_cases hw : ((v.passes.get p).chutes.get c).wagon = .present <;> by_cases hk : k.kind = .stopDraw
        <;> cases sev <;> simp [hw, hk, firstOf]
  | signal p t =>
    have hmet : preconditionsMet v tr (.signal p t) ↔ ((v.passes.get p).tips.get t).breaker = .parked
        ∧ hasNonSafe tr (.breaker p t) = false ∧ ((v.passes.get p).tips.get t).standing = .below := Iff.rfl
    simp only [hmet, preconditionCheck, unmetReason]
    by_cases hb : ((v.passes.get p).tips.get t).breaker = .parked <;> cases hn : hasNonSafe tr (.breaker p t)
      <;> by_cases hg : ((v.passes.get p).tips.get t).standing = .below <;> cases sev <;> simp [hb, hg, firstOf]
  | breaker p t =>
    have hmet : preconditionsMet v tr (.breaker p t) ↔ ((v.passes.get p).tips.get t).signal = .isOff
        ∧ hasNonSafe tr (.signal p t) = false := Iff.rfl
    simp only [hmet, preconditionCheck, unmetReason]
    by_cases hb : ((v.passes.get p).tips.get t).signal = .isOff <;> cases hn : hasNonSafe tr (.signal p t)
      <;> cases sev <;> simp [hb, firstOf]

/-- R115, R117: a gate is forwarded below the opening asked for. -/
def cutShort (v : View) (a : Actuator) (n : Nat) : Prop := (∃ p c, a = .gate p c) ∧ forwardedValue v a n < n

theorem firstOf_clampCheck [Decidable (cutShort v a n)] :
    firstOf sev (clampCheck v a n) =
      if cutShort v a n ∧ sev = .clamp then some (.clamp, clampReason v a (forwardedValue v a n)) else none := by
  cases a with
  | gate p c =>
    have hcut : cutShort v (.gate p c) n ↔ forwardedOpening v (.gate p c) n < n := by simp [cutShort, forwardedValue]
    simp only [clampCheck, hcut, forwardedValue]
    by_cases h : forwardedOpening v (.gate p c) n < n <;> cases sev <;> simp [h, firstOf]
  | signal p t => simp [clampCheck, cutShort]
  | breaker p t => simp [clampCheck, cutShort]

/-! ### The outcomes of the five checks together -/

/-- R115: some check refuses. -/
def refused (v : View) (a : Actuator) : Prop :=
  (v.passes.get a.pass).mode.isLive = false ∨ interlockCell v a = some .refuse ∨ tooWet v a

/-- R115: some check holds. -/
def heldBack (v : View) (tr : Traffic) (a : Actuator) : Prop :=
  interlockCell v a = some .hold ∨ ¬preconditionsMet v tr a

open Classical in
/-- The reason of the first check that refuses. -/
noncomputable def refusalReason (v : View) (a : Actuator) : Reason :=
  if (v.passes.get a.pass).mode.isLive = false then .passState
  else if interlockCell v a = some .refuse then .table else .wet

/-- The reason of the first check that holds. -/
def holdReason (v : View) (tr : Traffic) (a : Actuator) : Reason :=
  if interlockCell v a = some .hold then .table else unmetReason v tr a

theorem firstOf_refuse_checks :
    (refused v a → firstOf .refuse (checks v tr a n) = some (.refuse, refusalReason v a))
      ∧ (¬refused v a → firstOf .refuse (checks v tr a n) = none) := by
  classical
  simp only [checks, firstOf_append, firstOf_stateCheck, firstOf_tableCheck, firstOf_preconditionCheck,
    firstOf_wetnessCheck, firstOf_clampCheck, refused, refusalReason]
  by_cases hl : (v.passes.get a.pass).mode.isLive = false <;> by_cases hc : interlockCell v a = some .refuse
    <;> by_cases hw : tooWet v a <;> simp [hl, hc, hw]

theorem firstOf_hold_checks :
    (heldBack v tr a → firstOf .hold (checks v tr a n) = some (.hold, holdReason v tr a))
      ∧ (¬heldBack v tr a → firstOf .hold (checks v tr a n) = none) := by
  classical
  simp only [checks, firstOf_append, firstOf_stateCheck, firstOf_tableCheck, firstOf_preconditionCheck,
    firstOf_wetnessCheck, firstOf_clampCheck, heldBack, holdReason]
  by_cases hc : interlockCell v a = some .hold <;> by_cases hm : preconditionsMet v tr a <;> simp [hc, hm]

theorem firstOf_clamp_checks :
    (cutShort v a n → firstOf .clamp (checks v tr a n) = some (.clamp, clampReason v a (forwardedValue v a n)))
      ∧ (¬cutShort v a n → firstOf .clamp (checks v tr a n) = none) := by
  classical
  simp only [checks, firstOf_append, firstOf_stateCheck, firstOf_tableCheck, firstOf_preconditionCheck,
    firstOf_wetnessCheck, firstOf_clampCheck]
  by_cases hc : cutShort v a n <;> simp [hc]

/-! ### The verdict -/

theorem judge_of_refused (h : refused v a) :
    judge v tr a n = { severity := .refuse, reason := refusalReason v a, value := forwardedValue v a n } := by
  simp only [judge, mostSevere_eq, firstOf_refuse_checks.1 h, Option.getD_some]

theorem judge_of_held (h : ¬refused v a) (hh : heldBack v tr a) :
    judge v tr a n = { severity := .hold, reason := holdReason v tr a, value := forwardedValue v a n } := by
  simp only [judge, mostSevere_eq, firstOf_refuse_checks.2 h, firstOf_hold_checks.1 hh, Option.getD_some,
    Option.getD_none]

theorem judge_of_cut (h : ¬refused v a) (hh : ¬heldBack v tr a) (hc : cutShort v a n) :
    judge v tr a n =
      { severity := .clamp, reason := clampReason v a (forwardedValue v a n), value := forwardedValue v a n } := by
  simp only [judge, mostSevere_eq, firstOf_refuse_checks.2 h, firstOf_hold_checks.2 hh, firstOf_clamp_checks.1 hc,
    Option.getD_some, Option.getD_none]

theorem judge_of_passed (h : ¬refused v a) (hh : ¬heldBack v tr a) (hc : ¬cutShort v a n) :
    judge v tr a n = { severity := .pass, reason := .noReason, value := forwardedValue v a n } := by
  simp only [judge, mostSevere_eq, firstOf_refuse_checks.2 h, firstOf_hold_checks.2 hh, firstOf_clamp_checks.2 hc,
    Option.getD_none]

@[simp] theorem judge_value : (judge v tr a n).value = forwardedValue v a n := rfl

/-- One of the four outcomes. -/
theorem judge_cases (v : View) (tr : Traffic) (a : Actuator) (n : Nat) :
    refused v a ∨ ¬refused v a ∧ heldBack v tr a ∨ ¬refused v a ∧ ¬heldBack v tr a ∧ cutShort v a n
      ∨ ¬refused v a ∧ ¬heldBack v tr a ∧ ¬cutShort v a n := by
  tauto

theorem judge_refuse_iff : (judge v tr a n).severity = .refuse ↔ refused v a := by
  obtain h | ⟨h, hh⟩ | ⟨h, hh, hc⟩ | ⟨h, hh, hc⟩ := judge_cases v tr a n
  · simp [judge_of_refused h, h]
  · simp [judge_of_held h hh, h]
  · simp [judge_of_cut h hh hc, h]
  · simp [judge_of_passed h hh hc, h]

theorem judge_hold_iff : (judge v tr a n).severity = .hold ↔ ¬refused v a ∧ heldBack v tr a := by
  obtain h | ⟨h, hh⟩ | ⟨h, hh, hc⟩ | ⟨h, hh, hc⟩ := judge_cases v tr a n
  · simp [judge_of_refused h, h]
  · simp [judge_of_held h hh, h, hh]
  · simp [judge_of_cut h hh hc, hh]
  · simp [judge_of_passed h hh hc, hh]

theorem judge_clamp_iff :
    (judge v tr a n).severity = .clamp ↔ ¬refused v a ∧ ¬heldBack v tr a ∧ cutShort v a n := by
  obtain h | ⟨h, hh⟩ | ⟨h, hh, hc⟩ | ⟨h, hh, hc⟩ := judge_cases v tr a n
  · simp [judge_of_refused h, h]
  · simp [judge_of_held h hh, hh]
  · simp [judge_of_cut h hh hc, h, hh, hc]
  · simp [judge_of_passed h hh hc, hc]

theorem judge_allowed_iff : Allowed (judge v tr a n) ↔ ¬refused v a ∧ ¬heldBack v tr a := by
  unfold Allowed
  obtain h | ⟨h, hh⟩ | ⟨h, hh, hc⟩ | ⟨h, hh, hc⟩ := judge_cases v tr a n
  · simp [judge_of_refused h, h]
  · simp [judge_of_held h hh, hh]
  · simp [judge_of_cut h hh hc, h, hh]
  · simp [judge_of_passed h hh hc, h, hh]

/-! ### The forwarded value (R117, R118) -/

theorem forwardedOpening_of_clamp {k : Nat} (h : interlockCell v a = some (.clamp k)) :
    forwardedOpening v a n = min n (min k (min (openingLimit v a.pass) 100)) := by
  simp only [forwardedOpening, h]

theorem forwardedOpening_of_not_clamp (h : ∀ k, interlockCell v a ≠ some (.clamp k)) :
    forwardedOpening v a n = min n (min (openingLimit v a.pass) 100) := by
  unfold forwardedOpening
  split
  · exact absurd ‹_› (h _)
  · rfl

theorem forwardedOpening_le :
    forwardedOpening v a n ≤ openingLimit v a.pass ∧ forwardedOpening v a n ≤ 100
      ∧ ∀ k, interlockCell v a = some (.clamp k) → forwardedOpening v a n ≤ k := by
  by_cases h : ∃ k, interlockCell v a = some (.clamp k)
  · obtain ⟨k, hk⟩ := h
    rw [forwardedOpening_of_clamp hk]
    refine ⟨by omega, by omega, fun k' hk' => ?_⟩
    rw [hk] at hk'
    cases hk'
    omega
  · have hnot : ∀ k, interlockCell v a ≠ some (.clamp k) := fun k hk => h ⟨k, hk⟩
    rw [forwardedOpening_of_not_clamp hnot]
    exact ⟨by omega, by omega, fun k hk => absurd hk (hnot k)⟩

/-- R118: what a verdict of PASS or CLAMP forwards may be placed. -/
theorem placeable_of_allowed (h : Allowed (judge v tr a n)) : placeable v a (judge v tr a n).value := by
  obtain ⟨hr, hh⟩ := judge_allowed_iff.mp h
  simp only [refused, heldBack, not_or] at hr hh
  obtain ⟨hlive, hrefuse, hwet⟩ := hr
  refine ⟨by simpa using hlive, hrefuse, hh.1, ?_⟩
  rintro p c rfl
  obtain ⟨h1, h2, h3⟩ := forwardedOpening_le (v := v) (a := .gate p c) (n := n)
  exact ⟨Nat.pos_of_ne_zero fun h0 => hwet ⟨p, c, rfl, h0⟩, h1, h2, h3⟩

end verdict

/-- Settles O21, by the four outcomes of a judgement and the first check that gives each. -/
theorem verdictIsTheMostSevere : Obligations.VerdictIsTheMostSevere := by
  intro v tr a r vd live cell wet refuses holds
  have hrefuses : refuses ↔ refused v a := Iff.rfl
  have hholds : holds ↔ heldBack v tr a := Iff.rfl
  refine ⟨judge_refuse_iff, judge_hold_iff, judge_clamp_iff, fun h => ?_, fun h hc => ?_, fun h hc hm => ?_, fun h => ?_⟩
  · have hvd : vd.reason = refusalReason v a := congrArg Verdict.reason (judge_of_refused h)
    rw [hvd]
    refine ⟨fun hl => if_pos hl, fun hl hc => ?_, fun hl hc => ?_⟩
    · rw [refusalReason, if_neg (by simpa [live] using hl), if_pos hc]
    · rw [refusalReason, if_neg (by simpa [live] using hl), if_neg hc]
  · have hvd : vd.reason = holdReason v tr a := congrArg Verdict.reason (judge_of_held h (.inl hc))
    rw [hvd]
    exact if_pos hc
  · have hvd : vd.reason = holdReason v tr a := congrArg Verdict.reason (judge_of_held h (.inr hm))
    have hunmet : vd.reason = unmetReason v tr a := hvd.trans (if_neg hc)
    rw [hunmet]
    exact ⟨fun p c ha => by rw [ha]; rfl, fun p t ha => by rw [ha]; rfl, fun p t ha => by rw [ha]; rfl⟩
  · obtain hr | ⟨hr, hh⟩ | ⟨hr, hh, hc⟩ | ⟨hr, hh, hc⟩ := judge_cases v tr a r
    · rw [show vd = _ from judge_of_refused hr] at h; cases h
    · rw [show vd = _ from judge_of_held hr hh] at h; cases h
    · rw [show vd = _ from judge_of_cut hr hh hc] at h; cases h
    · rw [show vd = _ from judge_of_passed hr hh hc]

end Sys2Proof.Machine

/-! Every composite operation of the Hold Pool, the Action Queue and the Interlock Unit as a run of elementary acts. -/

namespace Sys2Proof.Machine

/-! ### The steps that issue and duplicate -/

section issue

variable {v : View} {tr : Traffic} {a : Actuator} {n : Nat}

/-- R138: an issue changes nothing, or marks the oldest WAITING entry and places its telegram. -/
theorem Traffic.issue_cases (v : View) (a : Actuator) (n : Nat) (tr : Traffic) :
    tr.issue v a n = tr
      ∨ ∃ cp e, commandPoint v.tables a = some cp ∧ tr.actions.find? (ActionEntry.isWaitingFor a) = some e
          ∧ tr.issue v a n = Traffic.placeField v.tables
              { tel := actionTelegram v.tables.device.ownStation cp e n, cls := .action a e.direction }
              { tr with
                actions := markIssued a n (cp.response.getD 0) (actionTelegram v.tables.device.ownStation cp e n) tr.actions
                history := noteIssue a e.direction tr.history } := by
  unfold Traffic.issue
  split
  · rename_i cp e hcp he
    exact .inr ⟨cp, e, hcp, he, rfl⟩
  · exact .inl rfl

/-- R145: a duplicate changes nothing, or places a copy of the telegram that was SENT. -/
theorem Traffic.attach_cases (v : View) (a : Actuator) (e : ActionEntry) (tr : Traffic) :
    tr.attach v a e = tr
      ∨ ∃ d tel, e.state = .issued d true tel
          ∧ tr.attach v a e = Traffic.placeField v.tables { tel := tel, cls := .action a e.direction }
              { tr with actions := setStanding a false tr.actions } := by
  unfold Traffic.attach
  split
  · exact .inr ⟨_, _, ‹_›, rfl⟩
  · exact .inl rfl
  · exact .inl rfl

theorem mem_markIssued {d : Nat} {tel : Telegram} {l : List ActionEntry} {x : ActionEntry}
    (h : x ∈ markIssued a n d tel l) :
    x ∈ l ∨ ∃ e, l.find? (ActionEntry.isWaitingFor a) = some e ∧ x = { e with value := n, state := .issued d false tel } := by
  induction l with
  | nil => cases h
  | cons e es ih =>
    unfold markIssued at h
    split at h
    · rename_i hw
      rcases List.mem_cons.mp h with h | h
      · exact .inr ⟨e, by simp [hw], h⟩
      · exact .inl (List.mem_cons_of_mem _ h)
    · rename_i hw
      rcases List.mem_cons.mp h with h | h
      · exact .inl (h ▸ List.mem_cons_self)
      · refine (ih h).imp (List.mem_cons_of_mem _) ?_
        rintro ⟨e', he, rfl⟩
        exact ⟨e', by simpa [List.find?_cons, hw] using he, rfl⟩

theorem mem_setStanding {b : Bool} {l : List ActionEntry} {x : ActionEntry} (h : x ∈ setStanding a b l) :
    ∃ e ∈ l, x = e ∨ x = e.withStanding b := by
  obtain ⟨e, he, rfl⟩ := List.mem_map.mp h
  refine ⟨e, he, ?_⟩
  split
  · exact .inr rfl
  · exact .inl rfl

theorem SameEntries.mem {l m : List ActionEntry} {x : ActionEntry} (h : SameEntries l m) (hx : x ∈ l) :
    ∃ e ∈ m, x = e ∨ x = e.withStanding true := by
  obtain ⟨b, rfl | rfl⟩ := h
  · exact ⟨x, hx, .inl rfl⟩
  · exact mem_setStanding hx

theorem Traffic.fieldArbitrate_actions (tr : Traffic) : SameEntries tr.fieldArbitrate.actions tr.actions := by
  obtain h | ⟨q, rest, -, -, h⟩ := tr.fieldArbitrate_cases <;> rw [h]
  · exact ⟨.gate 0 0, .inl rfl⟩
  · simp only [noteSent]
    split
    · rename_i b d _; exact ⟨b, .inr rfl⟩
    · exact ⟨.gate 0 0, .inl rfl⟩

end issue

/-! ### Runs -/

section runs

variable {v : View} {once : Prop} {tr tr' tr'' : Traffic} {a : Actuator} {p : PassId}

theorem Prims.one (h : Prim v once tr tr') : Prims v once tr tr' := .single h

theorem Prims.keeps {P : Traffic → Prop} (hP : ∀ t u, Prim v once t u → P t → P u) (h : Prims v once tr tr') (h0 : P tr) :
    P tr' := by
  induction h with
  | refl => exact h0
  | tail _ h2 ih => exact hP _ _ h2 ih

theorem Prims.foldl {α : Type} {f : Traffic → α → Traffic} (l : List α) (hf : ∀ x ∈ l, ∀ t, Prims v once t (f t x)) :
    ∀ t, Prims v once t (l.foldl f t) := by
  induction l with
  | nil => exact fun t => .refl
  | cons x xs ih =>
    intro t
    exact (hf x (by simp) t).trans (ih (fun y hy => hf y (by simp [hy])) _)

theorem answer_prims (r : Requester) (ans : Answer) (reason : Reason) (n : Nat) (tr : Traffic) :
    Prims v once tr (tr.answer v.tables r ans reason n) :=
  .one (.placeControl tr _ (fun _ => rfl) (checkHolds_verdictTelegram _ _ _ _ _))

theorem answerEntry_prims (e : ActionEntry) (ans : Answer) (reason : Reason) (n : Nat) (tr : Traffic) :
    Prims v once tr (tr.answerEntry v.tables e ans reason n) := by
  unfold Traffic.answerEntry
  split
  · exact answer_prims _ _ _ _ _
  · exact .refl

/-! ### Entries that leave -/

theorem filter_eraseP_of_disjoint {α : Type} {f g : α → Bool} (h : ∀ x, f x = true → g x = false) (l : List α) :
    (l.eraseP g).filter f = l.filter f := by
  induction l with
  | nil => rfl
  | cons x xs ih =>
    by_cases hg : g x = true
    · have : f x = false := by
        by_contra hf
        rw [h x (by simpa using hf)] at hg
        cases hg
      simp [hg, this]
    · simp [hg, List.filter_cons, ih]

theorem ActionEntry.isIssued_not_waitingFor {e : ActionEntry} (h : e.isIssued = true) : e.isWaitingFor a = false := by
  obtain ⟨d, sent, tel, hs⟩ := ActionEntry.isIssued_iff.mp h
  simp [ActionEntry.isWaitingFor, hs]

theorem ActionEntry.isIssued_not_waiting {e : ActionEntry} (h : e.isIssued = true) : e.isWaiting = false := by
  obtain ⟨d, sent, tel, hs⟩ := ActionEntry.isIssued_iff.mp h
  simp [ActionEntry.isWaiting, hs]

theorem dropOldest_prim (tr : Traffic) (a : Actuator) :
    Prim v once tr { tr with actions := tr.actions.eraseP (ActionEntry.isWaitingFor a) } :=
  .dropWaiting tr _ List.eraseP_sublist (filter_eraseP_of_disjoint (fun _ => ActionEntry.isIssued_not_waitingFor) _)

theorem dropLine_prim (tr : Traffic) (a : Actuator) :
    Prim v once tr { tr with actions := tr.actions.filter fun e => !e.isWaitingFor a } := by
  refine .dropWaiting tr _ List.filter_sublist ?_
  rw [List.filter_filter]
  refine List.filter_congr fun e _ => ?_
  cases h : e.isIssued
  · rfl
  · simp [ActionEntry.isIssued_not_waitingFor h]

theorem cancelWaiting_prims (a : Actuator) (reason : Reason) (tr : Traffic) :
    Prims v once tr (tr.cancelWaiting v.tables a reason) :=
  (Prims.one (dropLine_prim tr a)).trans (Prims.foldl _ (fun e _ t => answerEntry_prims e _ _ _ t) _)

theorem foldl_answerEntry_actions {tb : Tables} {ans : Answer} {reason : Reason} {n : Nat} (l : List ActionEntry) :
    ∀ t : Traffic, (l.foldl (fun t e => t.answerEntry tb e ans reason n) t).actions = t.actions := by
  induction l with
  | nil => exact fun _ => rfl
  | cons e es ih => exact fun t => (ih _).trans Traffic.answerEntry_actions

theorem cancelWaiting_actions {tb : Tables} (a : Actuator) (reason : Reason) (tr : Traffic) :
    (tr.cancelWaiting tb a reason).actions = tr.actions.filter fun e => !e.isWaitingFor a :=
  foldl_answerEntry_actions _ _

theorem makeRoom_prims (tr : Traffic) : Prims v once tr (tr.makeRoom v.tables) := by
  unfold Traffic.makeRoom
  split
  · exact .refl
  · split
    · exact (Prims.one (.dropWaiting tr _ List.eraseP_sublist
        (filter_eraseP_of_disjoint (fun _ => ActionEntry.isIssued_not_waiting) _))).trans (answerEntry_prims _ _ _ _ _)
    · exact .refl

theorem makeRoom_sublist {tb : Tables} (tr : Traffic) : (tr.makeRoom tb).actions.Sublist tr.actions := by
  unfold Traffic.makeRoom
  split
  · exact List.Sublist.refl _
  · split
    · simp only [Traffic.answerEntry_actions]
      exact List.eraseP_sublist
    · exact List.Sublist.refl _

theorem dropFailed_prims (a : Actuator) (tr : Traffic) : Prims v once tr (tr.dropFailed v.tables a) :=
  (Prims.one (.removeIssued tr a)).trans (cancelWaiting_prims _ _ _)

/-! ### Admission, promotion and the safe direction -/

theorem lineEmpty_iff {tr : Traffic} {a : Actuator} :
    (tr.actions.filter fun e => decide (e.actuator = a)).isEmpty = true ↔ ∀ e ∈ tr.actions, e.actuator ≠ a := by
  simp [List.isEmpty_iff, List.filter_eq_nil_iff]

theorem ActionEntry.isIssuedFor_of_ne {e : ActionEntry} (h : e.actuator ≠ a) : e.isIssuedFor a = false := by
  unfold ActionEntry.isIssuedFor
  split <;> simp [h]

theorem enlist_prims {n : Nat} (r : Requester) (c : Carried) (tr : Traffic) (h : placeable v a n) :
    Prims v once tr (tr.enlist v a n r c).1 := by
  let entry : ActionEntry :=
    { actuator := a, direction := .nonSafe, value := n, origin := .station r, carried := c, state := .waiting }
  have hjoin : Prims v once tr { tr with actions := tr.actions ++ [entry] } := .one (.join tr entry tr.tagCounter rfl)
  unfold Traffic.enlist
  simp only
  split
  · exact .refl
  · split
    · exact .refl
    · split
      · rename_i hempty
        refine hjoin.tail (.issue _ a n (fun _ e he => ?_) fun _ _ _ => h)
        rcases List.mem_append.mp he with he | he
        · exact ActionEntry.isIssuedFor_of_ne (lineEmpty_iff.mp hempty e he)
        · rw [List.mem_singleton.mp he]; rfl
      · exact hjoin

theorem promoteLine_prims (l : List ActionEntry) : ∀ tr : Traffic, (once → ∀ e ∈ tr.actions, e.isIssuedFor a = false) →
    Prims v once tr (tr.promoteLine v a l) := by
  induction l with
  | nil => exact fun tr _ => .refl
  | cons e es ih =>
    intro tr h
    have placed : Allowed (judge v tr a e.value) →
        Prims v once tr
          (if (judge v tr a e.value).value < e.value then
            (tr.issue v a (judge v tr a e.value).value).answerEntry v.tables e .clamped (judge v tr a e.value).reason
              (judge v tr a e.value).value
          else tr.issue v a (judge v tr a e.value).value) := by
      intro ok
      have h1 : Prims v once tr (tr.issue v a (judge v tr a e.value).value) :=
        .one (.issue tr a _ h fun _ _ _ => placeable_of_allowed ok)
      split
      · exact h1.trans (answerEntry_prims _ _ _ _ _)
      · exact h1
    have dropped : Prims v once tr
        (Traffic.promoteLine v a es
          (Traffic.answerEntry v.tables e .cancelled (judge v tr a e.value).reason 0
            { tr with actions := tr.actions.eraseP (ActionEntry.isWaitingFor a) })) := by
      refine ((Prims.one (dropOldest_prim tr a)).trans (answerEntry_prims _ _ _ _ _)).trans (ih _ ?_)
      intro ho x hx
      rw [Traffic.answerEntry_actions] at hx
      exact h ho x (List.mem_of_mem_eraseP hx)
    unfold Traffic.promoteLine
    simp only
    split
    · exact placed (.inl ‹_›)
    · exact placed (.inr ‹_›)
    · exact dropped
    · exact dropped

/-- R135: with its one ISSUED entry removed an actuator has none ISSUED. -/
theorem eraseP_not_issued {l : List ActionEntry} (h : (l.filter (ActionEntry.isIssuedFor a)).length ≤ 1) :
    ∀ e ∈ l.eraseP (ActionEntry.isIssuedFor a), e.isIssuedFor a = false := by
  induction l with
  | nil => simp
  | cons x xs ih =>
    by_cases hx : x.isIssuedFor a = true
    · have hnil : xs.filter (ActionEntry.isIssuedFor a) = [] := by
        simp only [List.filter_cons_of_pos hx, List.length_cons] at h
        exact List.length_eq_zero_iff.mp (by omega)
      simp only [List.eraseP_cons_of_pos hx]
      exact fun e he => by simpa using List.filter_eq_nil_iff.mp hnil e he
    · rw [List.eraseP_cons_of_neg hx]
      rw [List.filter_cons_of_neg hx] at h
      intro e he
      rcases List.mem_cons.mp he with rfl | he
      · simpa using hx
      · exact ih h e he

theorem retire_prims {e : ActionEntry} (tr : Traffic) (h : once → IssuedOnce tr) : Prims v once tr (tr.retire v e) := by
  unfold Traffic.retire
  simp only
  refine ((Prims.one (.removeIssued tr e.actuator)).tail (.history _ _)).trans (promoteLine_prims _ _ ?_)
  exact fun ho => eraseP_not_issued (h ho e.actuator)

theorem issueSafe_prims (o : Option Requester) (c : Carried) (tr : Traffic)
    (hw : ∀ e ∈ tr.actions, e.isWaitingFor a = false) (hi : once → ∀ e ∈ tr.actions, e.isIssuedFor a = false) :
    Prims v once tr (tr.issueSafe v a o c) := by
  have hsub := (makeRoom_sublist (tb := v.tables) tr).subset
  unfold Traffic.issueSafe
  simp only
  refine ((makeRoom_prims tr).tail (.join _ _ _ rfl)).tail (.issue _ a 0 (fun ho e he => ?_) fun e he hd => ?_)
  · rcases List.mem_append.mp he with he | he
    · exact hi ho e (hsub he)
    · rw [List.mem_singleton.mp he]; rfl
  · rcases List.mem_append.mp (List.mem_of_find?_eq_some he) with h | h
    · have := List.find?_some he
      rw [hw e (hsub h)] at this
      cases this
    · rw [List.mem_singleton.mp h] at hd
      cases hd

theorem takeSafe_prims (o : Option Requester) (c : Carried) (tr : Traffic) (h : once → IssuedOnce tr) :
    Prims v once tr (tr.takeSafe v a o c) := by
  have hcancel : (tr.cancelWaiting v.tables a .safePreempt).actions = tr.actions.filter fun e => !e.isWaitingFor a :=
    cancelWaiting_actions _ _ _
  have hw : ∀ e ∈ (tr.cancelWaiting v.tables a .safePreempt).actions, e.isWaitingFor a = false := by
    rw [hcancel]
    exact fun e he => by simpa using (List.mem_filter.mp he).2
  have honce : once → IssuedOnce (tr.cancelWaiting v.tables a .safePreempt) := by
    intro ho b
    rw [hcancel]
    exact (List.Sublist.length_le (List.filter_sublist.filter _)).trans (h ho b)
  unfold Traffic.takeSafe
  refine (cancelWaiting_prims a .safePreempt tr).trans ?_
  simp only
  split
  · rename_i hnone
    exact issueSafe_prims _ _ _ hw fun _ e he => by simpa using List.find?_eq_none.mp hnone e he
  · rename_i e he
    split
    · exact Prims.one (.attach _ a e he)
    · refine ((answerEntry_prims _ _ _ _ _).tail (.removeIssued _ a)).trans (issueSafe_prims _ _ _ ?_ fun ho => ?_)
      · intro x hx
        simp only [Traffic.removeIssued_actions, Traffic.answerEntry_actions] at hx
        exact hw x (List.mem_of_mem_eraseP hx)
      · simp only [Traffic.removeIssued_actions, Traffic.answerEntry_actions]
        exact eraseP_not_issued (honce ho a)

theorem originate_prims (tr : Traffic) (h : once → IssuedOnce tr) : Prims v once tr (tr.originate v a) := by
  unfold Traffic.originate
  split
  · exact takeSafe_prims _ _ _ h
  · exact .refl

/-! ### The Hold Pool -/

theorem unpark_prim (tr : Traffic) (a : Actuator) : Prim v once tr (tr.unpark a) :=
  .pool tr _ (List.filter_sublist.map _)

theorem supersede_prims (tr : Traffic) (a : Actuator) : Prims v once tr (tr.supersede v.tables a) := by
  unfold Traffic.supersede
  split
  · exact (Prims.one (unpark_prim tr a)).trans (answer_prims _ _ _ _ _)
  · exact .refl

theorem park_prims (t : Telegram) (reason : Reason) (tr : Traffic) (h : ∀ x ∈ tr.pool, x.actuator ≠ a) :
    Prims v once tr (tr.park v a t reason) := by
  unfold Traffic.park
  split
  · exact (Prims.one (.park tr
      { actuator := a, requester := requesterOf t, value := t.value, carried := carriedOf t, timer := holdTime v a
        reason := reason } h ‹_›)).trans (answer_prims _ _ _ _ _)
  · exact answer_prims _ _ _ _ _

theorem release_prims (e : HeldEntry) (vd : Verdict) (tr : Traffic) (h : placeable v e.actuator vd.value) :
    Prims v once tr (tr.release v e vd) := by
  have h1 : Prims v once tr ((tr.unpark e.actuator).enlist v e.actuator vd.value e.requester e.carried).1 :=
    (Prims.one (unpark_prim tr _)).trans (enlist_prims _ _ _ h)
  unfold Traffic.release
  split
  · rename_i he
    rw [he] at h1
    exact h1.trans (answer_prims _ _ _ _ _)
  · rename_i he
    rw [he] at h1
    exact h1.trans (answer_prims _ _ _ _ _)

theorem rejudge_prims (e : HeldEntry) (tr : Traffic) : Prims v once tr (tr.rejudge v e) := by
  unfold Traffic.rejudge
  simp only
  split
  · exact release_prims _ _ _ (placeable_of_allowed (.inl ‹_›))
  · exact release_prims _ _ _ (placeable_of_allowed (.inr ‹_›))
  · exact (Prims.one (unpark_prim tr _)).trans (answer_prims _ _ _ _ _)
  · refine .one (.pool tr _ ?_)
    rw [List.map_map]
    have hsame : tr.pool.map (HeldEntry.actuator ∘ fun x =>
        if x.isFor e.actuator then { x with reason := (judge v tr e.actuator (requestedValue e.value)).reason } else x)
        = tr.pool.map HeldEntry.actuator := by
      refine List.map_congr_left fun x _ => ?_
      simp only [Function.comp]
      split <;> rfl
    rw [hsame]

theorem round_prims (p : PassId) (tr : Traffic) : Prims v once tr (tr.round v p) :=
  Prims.foldl _ (fun e _ t => rejudge_prims e t) _

theorem purge_prims (p : PassId) (tr : Traffic) : Prims v once tr (tr.purge v.tables p) :=
  (Prims.one (.pool tr _ (List.filter_sublist.map _))).trans (Prims.foldl _ (fun _ _ t => answer_prims _ _ _ _ t) _)

/-! ### Commands and changes -/

theorem arriveNonSafe_prims (t : Telegram) (tr : Traffic) (h : ∀ x ∈ tr.pool, x.actuator ≠ a) :
    Prims v once tr (tr.arriveNonSafe v a t) := by
  have admitted : ∀ (ok : Allowed (judge v tr a (requestedValue t.value))) (f : Traffic → Traffic),
      (∀ u, Prims v once u (f u)) →
      Prims v once tr
        (match tr.enlist v a (judge v tr a (requestedValue t.value)).value (requesterOf t) (carriedOf t) with
          | (tr', some reason) => tr'.answer v.tables (requesterOf t) .refused reason 0
          | (tr', none) => f tr') := by
    intro ok f hf
    have h1 : Prims v once tr
        (tr.enlist v a (judge v tr a (requestedValue t.value)).value (requesterOf t) (carriedOf t)).1 :=
      enlist_prims _ _ _ (placeable_of_allowed ok)
    revert h1
    split <;> rename_i he <;> intro h1 <;> rw [he] at h1
    · exact h1.trans (answer_prims _ _ _ _ _)
    · exact h1.trans (hf _)
  unfold Traffic.arriveNonSafe arrivalVerdict
  simp only
  by_cases hz : (judge v tr a (requestedValue t.value)).severity = .hold ∧ holdTime v a = 0
  · rw [if_pos hz]
    exact answer_prims _ _ _ _ _
  · rw [if_neg hz]
    split
    · exact answer_prims _ _ _ _ _
    · exact park_prims t _ tr h
    · exact admitted (.inr ‹_›) (fun u => u.answer _ _ _ _ _) (fun u => answer_prims _ _ _ _ _)
    · exact admitted (.inl ‹_›) (fun u => u) (fun u => .refl)

end runs

/-! ### At most one ISSUED entry of an actuator -/

section issuedOnce

variable {v : View} {once : Prop} {tr tr' : Traffic} {a : Actuator} {p : PassId}

theorem SameEntries.filter_issued_length {l m : List ActionEntry} (h : SameEntries l m) (b : Actuator) :
    (l.filter (ActionEntry.isIssuedFor b)).length = (m.filter (ActionEntry.isIssuedFor b)).length := by
  obtain ⟨c, rfl | rfl⟩ := h
  · rfl
  · exact setStanding_filter_length (fun _ _ => ActionEntry.withStanding_isIssuedFor) _

theorem ActionEntry.isIssued_of_isIssuedFor {e : ActionEntry} {b : Actuator} (h : e.isIssuedFor b = true) :
    e.isIssued = true := ActionEntry.isIssued_iff.mpr (ActionEntry.isIssuedFor_iff.mp h).2

/-- What is ISSUED for an actuator is read off what is ISSUED at all. -/
theorem filter_issuedFor_of_filter_issued {l m : List ActionEntry}
    (h : l.filter ActionEntry.isIssued = m.filter ActionEntry.isIssued) (b : Actuator) :
    l.filter (ActionEntry.isIssuedFor b) = m.filter (ActionEntry.isIssuedFor b) := by
  have key : ∀ l : List ActionEntry,
      (l.filter ActionEntry.isIssued).filter (ActionEntry.isIssuedFor b) = l.filter (ActionEntry.isIssuedFor b) := by
    intro l
    rw [List.filter_filter]
    refine List.filter_congr fun e _ => ?_
    cases hb : e.isIssuedFor b
    · rfl
    · simp [ActionEntry.isIssued_of_isIssuedFor hb]
  rw [← key l, ← key m, h]

theorem markIssued_issued_length {n d : Nat} {tel : Telegram} (b : Actuator) (l : List ActionEntry) :
    ((markIssued a n d tel l).filter (ActionEntry.isIssuedFor b)).length
      ≤ (l.filter (ActionEntry.isIssuedFor b)).length + if b = a then 1 else 0 := by
  induction l with
  | nil => simp [markIssued]
  | cons e es ih =>
    unfold markIssued
    split
    · rename_i hw
      obtain ⟨rfl, hs⟩ := ActionEntry.isWaitingFor_iff.mp hw
      by_cases hb : b = e.actuator
      · simp [hb, ActionEntry.isIssuedFor, hs]
      · simp [hb, ActionEntry.isIssuedFor, hs, Ne.symm hb]
    · simp only [List.filter_cons]
      split
      · simp only [List.length_cons]; omega
      · exact ih

theorem Prim.issuedOnce (h : Prim v True tr tr') (h0 : IssuedOnce tr) : IssuedOnce tr' := by
  intro b
  cases h with
  | placeControl | raise | freeControl | clearOverruns | history | pool | park => exact h0 b
  | placeField q => exact ((Traffic.placeField_actions _ _ _).filter_issued_length b).trans_le (h0 b)
  | freeField => exact ((Traffic.fieldArbitrate_actions _).filter_issued_length b).trans_le (h0 b)
  | issue a n hnone =>
    obtain e | ⟨cp, x, -, -, e⟩ := tr.issue_cases v a n <;> rw [e]
    · exact h0 b
    · rw [(Traffic.placeField_actions _ _ _).filter_issued_length b]
      refine (markIssued_issued_length b _).trans ?_
      split
      · rename_i hb
        have : tr.actions.filter (ActionEntry.isIssuedFor b) = [] :=
          List.filter_eq_nil_iff.mpr fun x hx => by simp [hb, hnone trivial x hx]
        simp [this]
      · exact h0 b
  | attach a x =>
    obtain e | ⟨d, tel, -, e⟩ := tr.attach_cases v a x <;> rw [e]
    · exact h0 b
    · rw [(Traffic.placeField_actions _ _ _).filter_issued_length b]
      exact (setStanding_filter_length (fun _ _ => ActionEntry.withStanding_isIssuedFor) _).trans_le (h0 b)
  | removeIssued a => exact (List.Sublist.length_le (List.eraseP_sublist.filter _)).trans (h0 b)
  | dropWaiting l hl => exact (List.Sublist.length_le (hl.filter _)).trans (h0 b)
  | join e n hs =>
    have : e.isIssuedFor b = false := by simp [ActionEntry.isIssuedFor, hs]
    simpa [List.filter_append, this] using h0 b

theorem Prims.issuedOnce (h : Prims v True tr tr') (h0 : IssuedOnce tr) : IssuedOnce tr' :=
  h.keeps (fun _ _ => Prim.issuedOnce) h0

/-- A fold of operations that are each a run from traffic with no two ISSUED entries of an actuator. -/
theorem Prims.foldl_once {α : Type} {f : Traffic → α → Traffic} (hf : ∀ x t, (True → IssuedOnce t) → Prims v True t (f t x))
    (l : List α) : ∀ t, IssuedOnce t → Prims v True t (l.foldl f t) := by
  induction l with
  | nil => exact fun t _ => .refl
  | cons x xs ih =>
    intro t ht
    have h1 := hf x t fun _ => ht
    exact h1.trans (ih _ (h1.issuedOnce ht))

end issuedOnce

/-! ### Every act, and what is run for arbitrary traffic -/

section acts

variable {v : View} {tr tr' : Traffic} {p : PassId}

theorem Act.prims {once : Prop} (h : Act v tr tr') (h0 : once → IssuedOnce tr) : Prims v once tr tr' := by
  cases h with
  | placeControl q ha hc => exact .one (.placeControl _ q ha hc)
  | placeField q ha hc => exact .one (.placeField _ q ha hc)
  | raise src cls times n hf ht => exact .one (.raise _ src cls times n hf ht)
  | freeControl => exact .one (.freeControl _)
  | freeField => exact .one (.freeField _)
  | enlisting a n r c _ ok => exact enlist_prims r c _ (placeable_of_allowed ok)
  | park a e _ he _ hp hl => exact .one (.park _ e (he ▸ hp) hl)
  | unpark a => exact .one (unpark_prim _ a)
  | unparkPass p => exact .one (.pool _ _ (List.filter_sublist.map _))
  | round p => exact round_prims p _
  | takeSafe a o c => exact takeSafe_prims o c _ h0
  | retire a e => exact retire_prims _ h0
  | dropFailed a => exact dropFailed_prims a _
  | clearOverruns => exact .one (.clearOverruns _)

theorem arrive_prims (a : Actuator) (t : Telegram) (tr : Traffic) : Prims v False tr (tr.arrive v a t) := by
  unfold Traffic.arrive
  refine (supersede_prims tr a).trans ?_
  simp only
  split
  · exact takeSafe_prims _ _ _ False.elim
  · exact arriveNonSafe_prims t _ (supersede_pool _ a tr)

theorem Acts.prims (h : Acts v tr tr') : Prims v False tr tr' := by
  induction h with
  | refl => exact .refl
  | tail _ h2 ih => exact ih.trans (h2.prims False.elim)

end acts

/-! ### What every elementary act keeps -/

section keeps

variable {v : View} {once : Prop} {tr tr' : Traffic} {a : Actuator}

/-- R10: the bounds of both queues. -/
def Traffic.bounded (tr : Traffic) : Prop := tr.ctl.bounded ∧ tr.field.queue.length ≤ Config.txCapacity

/-- R5: every telegram passes its check. -/
def Traffic.checked (tr : Traffic) : Prop :=
  tr.ctl.checked ∧ tr.field.checked
    ∧ ∀ e ∈ tr.actions, ∀ d sent tel, e.state = .issued d sent tel → checkHolds tel = true

/-- R126: the Hold Pool. -/
def Traffic.pooled (tr : Traffic) : Prop :=
  tr.pool.length ≤ Config.poolCapacity ∧ (tr.pool.map HeldEntry.actuator).Nodup

theorem Traffic.placeField_bounded {q : Queued} {tb : Tables} (h : tr.bounded) : (tr.placeField tb q).bounded := by
  refine ⟨?_, Traffic.placeField_length h.2⟩
  rw [Traffic.placeField_ctl]
  split
  · exact ControlSide.raiseMany_bounded h.1
  · exact h.1

theorem Prim.bounded (h : Prim v once tr tr') (h0 : tr.bounded) : tr'.bounded := by
  cases h with
  | placeControl q ha => exact ⟨ControlSide.place_bounded ha h0.1, h0.2⟩
  | placeField q => exact Traffic.placeField_bounded h0
  | raise => exact ⟨ControlSide.raiseMany_bounded h0.1, h0.2⟩
  | freeControl => exact ⟨ControlSide.arbitrate_bounded h0.1, h0.2⟩
  | freeField =>
    exact ⟨by simpa using h0.1, Traffic.fieldArbitrate_queue_sublist.length_le.trans h0.2⟩
  | issue a n =>
    obtain e | ⟨cp, x, -, -, e⟩ := tr.issue_cases v a n <;> rw [e]
    · exact h0
    · exact Traffic.placeField_bounded h0
  | attach a x =>
    obtain e | ⟨d, tel, -, e⟩ := tr.attach_cases v a x <;> rw [e]
    · exact h0
    · exact Traffic.placeField_bounded h0
  | removeIssued a => exact ⟨h0.1, (List.length_filter_le _ _).trans h0.2⟩
  | clearOverruns | dropWaiting | join | history | pool | park => exact h0

theorem Traffic.placeField_noticed {q : Queued} {tb : Tables} (h : tr.ctl.noticed) : (tr.placeField tb q).ctl.noticed := by
  rw [Traffic.placeField_ctl]
  split
  · exact ControlSide.raiseMany_noticed sourceFits_overrun Nat.one_pos h
  · exact h

theorem Prim.noticed (h : Prim v once tr tr') (h0 : tr.ctl.noticed) : tr'.ctl.noticed := by
  cases h with
  | placeControl => exact ControlSide.place_noticed h0
  | placeField => exact Traffic.placeField_noticed h0
  | raise src cls times n hf ht => exact ControlSide.raiseMany_noticed hf ht h0
  | freeControl => exact ControlSide.arbitrate_noticed h0
  | freeField => simpa using h0
  | issue a n =>
    obtain e | ⟨cp, x, -, -, e⟩ := tr.issue_cases v a n <;> rw [e]
    · exact h0
    · exact Traffic.placeField_noticed h0
  | attach a x =>
    obtain e | ⟨d, tel, -, e⟩ := tr.attach_cases v a x <;> rw [e]
    · exact h0
    · exact Traffic.placeField_noticed h0
  | clearOverruns | removeIssued | dropWaiting | join | history | pool | park => exact h0

theorem Prim.pooled (h : Prim v once tr tr') (h0 : tr.pooled) : tr'.pooled := by
  cases h with
  | pool l hl => exact ⟨by simpa using hl.length_le.trans (by simpa using h0.1), h0.2.sublist hl⟩
  | park e hne hl =>
    refine ⟨by simp only [List.length_append, List.length_singleton]; omega, ?_⟩
    rw [List.map_append, List.map_singleton]
    refine List.nodup_append.mpr ⟨h0.2, List.nodup_singleton _, ?_⟩
    rintro b hb c hc rfl
    obtain ⟨x, hx, rfl⟩ := List.mem_map.mp hb
    exact hne x hx (List.mem_singleton.mp hc)
  | freeField => simpa [Traffic.pooled] using h0
  | placeField => simpa [Traffic.pooled] using h0
  | issue a n =>
    obtain e | ⟨cp, x, -, -, e⟩ := tr.issue_cases v a n <;> rw [e]
    · exact h0
    · simpa [Traffic.pooled] using h0
  | attach a x =>
    obtain e | ⟨d, tel, -, e⟩ := tr.attach_cases v a x <;> rw [e]
    · exact h0
    · simpa [Traffic.pooled] using h0
  | placeControl | raise | freeControl | clearOverruns | removeIssued | dropWaiting | join | history => exact h0

theorem ActionEntry.withStanding_state {e : ActionEntry} {b sent : Bool} {d : Nat} {tel : Telegram}
    (h : (e.withStanding b).state = .issued d sent tel) : ∃ sent', e.state = .issued d sent' tel := by
  unfold ActionEntry.withStanding at h
  split at h
  · rename_i hs
    injection h with h1 h2 h3
    exact ⟨_, h1 ▸ h3 ▸ hs⟩
  · rename_i hs
    rw [hs] at h
    cases h

/-- R5: the telegrams that ISSUED entries keep pass the check. -/
def keptChecked (l : List ActionEntry) : Prop :=
  ∀ e ∈ l, ∀ d sent tel, e.state = .issued d sent tel → checkHolds tel = true

theorem keptChecked_of_same {l m : List ActionEntry} (h : SameEntries l m) (hm : keptChecked m) : keptChecked l := by
  intro x hx d sent tel hs
  obtain ⟨e, he, rfl | rfl⟩ := h.mem hx
  · exact hm _ he d sent tel hs
  · obtain ⟨sent', hs'⟩ := ActionEntry.withStanding_state hs
    exact hm e he d sent' tel hs'

theorem keptChecked_setStanding {b : Bool} {l : List ActionEntry} (hl : keptChecked l) :
    keptChecked (setStanding a b l) := by
  intro x hx d sent tel hs
  obtain ⟨e, he, rfl | rfl⟩ := mem_setStanding hx
  · exact hl _ he d sent tel hs
  · obtain ⟨sent', hs'⟩ := ActionEntry.withStanding_state hs
    exact hl e he d sent' tel hs'

theorem Traffic.placeField_allChecked {q : Queued} {tb : Tables} (hq : checkHolds q.tel = true) (h : tr.checked) :
    (tr.placeField tb q).checked := by
  obtain ⟨hctl, hfield, hkept⟩ := h
  refine ⟨?_, Traffic.placeField_checked hq hfield, keptChecked_of_same (Traffic.placeField_actions _ _ _) hkept⟩
  rw [Traffic.placeField_ctl]
  split
  · exact ControlSide.raiseMany_checked hctl
  · exact hctl

theorem Prim.checked (h : Prim v once tr tr') (h0 : tr.checked) : tr'.checked := by
  have h0' := h0
  obtain ⟨hctl, hfield, hkept⟩ := h0
  cases h with
  | placeControl q _ hq => exact ⟨ControlSide.place_checked hq hctl, hfield, hkept⟩
  | placeField q _ hq => exact Traffic.placeField_allChecked hq h0'
  | raise => exact ⟨ControlSide.raiseMany_checked hctl, hfield, hkept⟩
  | freeControl => exact ⟨ControlSide.arbitrate_checked ⟨hctl.1, fun _ h => nomatch h⟩, hfield, hkept⟩
  | freeField =>
    exact ⟨by simpa using hctl, Traffic.fieldArbitrate_checked ⟨hfield.1, fun _ h => nomatch h⟩,
      keptChecked_of_same (Traffic.fieldArbitrate_actions _) hkept⟩
  | issue a n =>
    obtain e | ⟨cp, x, -, -, e⟩ := tr.issue_cases v a n <;> rw [e]
    · exact h0'
    · refine Traffic.placeField_allChecked (checkHolds_actionTelegram _ _ _ _) ⟨hctl, hfield, ?_⟩
      intro y hy d sent tel hs
      rcases mem_markIssued hy with hy | ⟨e', -, rfl⟩
      · exact hkept y hy d sent tel hs
      · injection hs with _ _ htel
        exact htel ▸ checkHolds_actionTelegram _ _ _ _
  | attach a x hx =>
    obtain e | ⟨d, tel, hs, e⟩ := tr.attach_cases v a x <;> rw [e]
    · exact h0'
    · exact Traffic.placeField_allChecked (hkept x (List.mem_of_find?_eq_some hx) d true tel hs)
        ⟨hctl, hfield, keptChecked_setStanding hkept⟩
  | removeIssued a =>
    exact ⟨hctl, ⟨fun q hq => hfield.1 q (List.mem_filter.mp hq).1, hfield.2⟩,
      fun e he => hkept e (List.mem_of_mem_eraseP he)⟩
  | dropWaiting l hl => exact ⟨hctl, hfield, fun e he => hkept e (hl.subset he)⟩
  | join e n hs =>
    refine ⟨hctl, hfield, fun x hx d sent tel hx' => ?_⟩
    rcases List.mem_append.mp hx with hx | hx
    · exact hkept x hx d sent tel hx'
    · rw [List.mem_singleton.mp hx, hs] at hx'
      cases hx'
  | clearOverruns | history | pool | park => exact h0'

end keeps

/-! ### What every move keeps -/

section moves

variable {s u : State}

/-- The traffic of a move is reached by elementary acts, cleared, or counts down. -/
inductive TrafficMoved (tr : Traffic) : Traffic → Prop
  | same : TrafficMoved tr tr
  | prims {u : Traffic} (v : View) : Prims v False tr u → TrafficMoved tr u
  | cleared : TrafficMoved tr clearedTraffic
  | history (h : Quad (Duo GateHistory)) : TrafficMoved tr { tr with history := h }
  | tick : TrafficMoved tr
      { tr with pool := tr.pool.map HeldEntry.tick, actions := tr.actions.map ActionEntry.tick }

theorem tripped_traffic (p : PassId) (c : Cause) (tel : Option Interrupted) :
    (s.tripped p c tel).traffic
      = ((safeStateOrder p).foldl
          (fun t a => t.originate
            (s.setPass p
              { s.pass p with
                mode := .tripped
                alarm := raisedAlarm .trip c (secondaryAtTrip (s.pass p)) s.time (s.pass p).est tel }).view a)
          s.traffic).purge s.tables p := rfl

theorem Move.trafficMoved (h : Move s u) : TrafficMoved s.traffic u.traffic := by
  cases h with
  | act tr ha => exact .prims _ (ha.prims False.elim)
  | restarted => exact .cleared
  | tripped p c tel =>
    exact .prims _ ((Prims.foldl _ (fun a _ t => originate_prims t False.elim) _).trans (purge_prims p _))
  | unconfigured p => exact .history _
  | elapse => exact .tick
  | lengthened p n =>
    unfold State.lengthened
    simp only
    split <;> exact .same
  | edit | registers | isolated | restored | configured | store | point => exact .same

/-- A property of the traffic that the elementary acts keep, that the empty traffic has, and that reads neither the
histories nor the running durations, is kept by every step. -/
theorem step_keeps_traffic {P : Traffic → Prop} (hprim : ∀ v t u, Prim v False t u → P t → P u) (hclear : P clearedTraffic)
    (hhist : ∀ t h, P t → P { t with history := h })
    (htick : ∀ t, P t → P { t with pool := t.pool.map HeldEntry.tick, actions := t.actions.map ActionEntry.tick })
    (h0 : P s.traffic) (h : step s = .next u) : P u.traffic := by
  refine step_keeps (I := fun s => P s.traffic) (fun s t hm hs => ?_) h0 h
  have hmoved := hm.trafficMoved
  revert hmoved
  generalize t.traffic = tr'
  intro hmoved
  cases hmoved with
  | same => exact hs
  | prims v hp => exact hp.keeps (hprim v) hs
  | cleared => exact hclear
  | history h => exact hhist _ h hs
  | tick => exact htick _ hs

theorem pooled_tick {tr : Traffic} (h : tr.pooled) :
    ({ tr with pool := tr.pool.map HeldEntry.tick, actions := tr.actions.map ActionEntry.tick } : Traffic).pooled := by
  refine ⟨by simpa using h.1, ?_⟩
  rw [List.map_map]
  exact h.2

theorem ActionEntry.tick_state {e : ActionEntry} {d : Nat} {sent : Bool} {tel : Telegram}
    (h : e.tick.state = .issued d sent tel) : ∃ d', e.state = .issued d' sent tel := by
  unfold ActionEntry.tick at h
  split at h
  · rename_i hs
    injection h with h1 h2 h3
    exact ⟨_, h2 ▸ h3 ▸ hs⟩
  · rename_i hs
    rw [hs] at h
    cases h

theorem checked_tick {tr : Traffic} (h : tr.checked) :
    ({ tr with pool := tr.pool.map HeldEntry.tick, actions := tr.actions.map ActionEntry.tick } : Traffic).checked := by
  obtain ⟨hctl, hfield, hkept⟩ := h
  refine ⟨hctl, hfield, fun x hx d sent tel hs => ?_⟩
  obtain ⟨e, he, rfl⟩ := List.mem_map.mp hx
  obtain ⟨d', hs'⟩ := ActionEntry.tick_state hs
  exact hkept e he d' sent tel hs'

theorem checked_iff (s : State) : TelegramsChecked s ↔ s.traffic.checked := by
  simp only [TelegramsChecked, Traffic.checked, ControlSide.checked, Port.checked]
  constructor
  · rintro ⟨h1, h2, h3, h4, h5⟩; exact ⟨⟨h1, h3⟩, ⟨h2, h4⟩, h5⟩
  · rintro ⟨⟨h1, h3⟩, ⟨h2, h4⟩, h5⟩; exact ⟨h1, h2, h3, h4, h5⟩

theorem bounded_iff (s : State) : QueuesBounded s ↔ s.traffic.bounded := by
  simp only [QueuesBounded, Traffic.bounded, ControlSide.bounded]
  constructor
  · rintro ⟨h1, h2, h3⟩; exact ⟨⟨h1, h3⟩, h2⟩
  · rintro ⟨⟨h1, h3⟩, h2⟩; exact ⟨h1, h2, h3⟩

theorem cleared_bounded : clearedTraffic.bounded := by
  simp [Traffic.bounded, ControlSide.bounded, clearedTraffic, clearedPort]

theorem cleared_checked : clearedTraffic.checked := by
  simp [Traffic.checked, ControlSide.checked, Port.checked, clearedTraffic, clearedPort]

end moves

/-- Settles O58, by cases on the elementary acts of the traffic. -/
theorem stepKeepsQueues : Obligations.StepKeepsQueues := by
  refine ⟨⟨rfl, rfl, rfl, rfl⟩, fun s t h hs => ?_, fun s t h hs => ?_, fun s t h hs => ?_, fun s t h hs => ?_⟩
  · rw [bounded_iff] at h ⊢
    exact step_keeps_traffic (fun _ _ _ => Prim.bounded) cleared_bounded (fun _ _ => id) (fun _ => id) h hs
  · exact step_keeps_traffic (P := fun tr => tr.ctl.noticed) (fun _ _ _ => Prim.noticed)
      (by simp [ControlSide.noticed, clearedTraffic]) (fun _ _ => id) (fun _ => id) h hs
  · exact step_keeps_traffic (P := Traffic.pooled) (fun _ _ _ => Prim.pooled)
      (by simp [Traffic.pooled, clearedTraffic]) (fun _ _ => id) (fun _ => pooled_tick) h hs
  · rw [checked_iff] at h ⊢
    exact step_keeps_traffic (fun _ _ _ => Prim.checked) cleared_checked (fun _ _ => id) (fun _ => checked_tick) h hs

end Sys2Proof.Machine

/-! What the elementary acts keep of the ISSUED entries: where a non-safe one comes from (R118), and which action
telegrams stand in the Field Port queue (R10, R138). -/

namespace Sys2Proof.Machine

/-! ### Non-safe entries that come out ISSUED (R118) -/

section allowed

variable {v : View} {once : Prop} {tr₀ tr tr' : Traffic} {a : Actuator}

/-- Each ISSUED non-safe entry may be placed, or was ISSUED before with its value. -/
def IssuedAllowed (v : View) (tr₀ tr : Traffic) : Prop :=
  ∀ e ∈ tr.actions, e.direction = .nonSafe → e.isIssuedFor e.actuator = true →
    placeable v e.actuator e.value
      ∨ ∃ e₀ ∈ tr₀.actions, e₀.isIssuedFor e.actuator = true ∧ e₀.direction = .nonSafe ∧ e₀.value = e.value

/-- What an ISSUED non-safe entry has to meet reads neither deadline nor standing. -/
def ActionEntry.allowed (v : View) (tr₀ : Traffic) (e : ActionEntry) : Prop :=
  e.direction = .nonSafe → e.isIssuedFor e.actuator = true →
    placeable v e.actuator e.value
      ∨ ∃ e₀ ∈ tr₀.actions, e₀.isIssuedFor e.actuator = true ∧ e₀.direction = .nonSafe ∧ e₀.value = e.value

theorem ActionEntry.allowed_withStanding {e : ActionEntry} {b : Bool} (h : e.allowed v tr₀) :
    (e.withStanding b).allowed v tr₀ := by
  unfold ActionEntry.allowed at h ⊢
  simpa using h

theorem IssuedAllowed.of_same {l : List ActionEntry} (h : SameEntries l tr.actions) (h0 : IssuedAllowed v tr₀ tr) :
    ∀ e ∈ l, e.allowed v tr₀ := by
  intro x hx
  obtain ⟨e, he, rfl | rfl⟩ := h.mem hx
  · exact h0 _ he
  · exact ActionEntry.allowed_withStanding (h0 e he)

theorem Prim.issuedAllowed (h : Prim v once tr tr') (h0 : IssuedAllowed v tr₀ tr) : IssuedAllowed v tr₀ tr' := by
  cases h with
  | placeControl | raise | freeControl | clearOverruns | history | pool | park => exact h0
  | placeField q => exact h0.of_same (Traffic.placeField_actions _ _ _)
  | freeField => exact h0.of_same (Traffic.fieldArbitrate_actions _)
  | issue a n _ hplaceable =>
    obtain e | ⟨cp, x, -, hx, e⟩ := tr.issue_cases v a n <;> rw [e]
    · exact h0
    · refine IssuedAllowed.of_same (tr := { tr with actions := markIssued a n (cp.response.getD 0) _ tr.actions })
        (Traffic.placeField_actions _ _ _) fun y hy hd hi => ?_
      rcases mem_markIssued hy with hy | ⟨z, hz, rfl⟩
      · exact h0 y hy hd hi
      · have ha : z.actuator = a := (ActionEntry.isWaitingFor_iff.mp (List.find?_some hz)).1
        exact .inl (ha ▸ hplaceable z hz hd)
  | attach a x hx =>
    obtain e | ⟨d, tel, hs, e⟩ := tr.attach_cases v a x <;> rw [e]
    · exact h0
    · refine IssuedAllowed.of_same (tr := { tr with actions := setStanding a false tr.actions })
        (Traffic.placeField_actions _ _ _) fun y hy => ?_
      obtain ⟨z, hz, rfl | rfl⟩ := mem_setStanding hy
      · exact h0 _ hz
      · exact ActionEntry.allowed_withStanding (h0 z hz)
  | removeIssued a => exact fun e he => h0 e (List.mem_of_mem_eraseP he)
  | dropWaiting l hl => exact fun e he => h0 e (hl.subset he)
  | join e n hs =>
    intro x hx hd hi
    rcases List.mem_append.mp hx with hx | hx
    · exact h0 x hx hd hi
    · rw [List.mem_singleton.mp hx] at hi
      simp [ActionEntry.isIssuedFor, hs] at hi

end allowed

/-- Settles O23: the four acts are runs of elementary acts, and only an issue makes an entry ISSUED. -/
theorem onlyAllowedCommandsAreIssued : Obligations.OnlyAllowedCommandsAreIssued := by
  intro v tr tr' h
  have hrun : Prims v False tr tr' := by
    rcases h with ⟨a, t, rfl⟩ | ⟨p, b, rfl⟩ | ⟨a, rfl⟩ | ⟨a, rfl⟩
    · exact arrive_prims a t tr
    · exact (change_acts p b tr).prims
    · exact (confirm_acts a tr).prims
    · exact originate_prims tr False.elim
  exact hrun.keeps (P := IssuedAllowed v tr) (fun _ _ => Prim.issuedAllowed) fun e he hd hi => .inr ⟨e, he, hi, hd, rfl⟩

/-! ### Action telegrams that stand queued (R10, R138) -/

section matched

variable {v : View} {tr tr' : Traffic} {a : Actuator} {q : Queued} {l : List Queued}

theorem filter_replaceFirst_length {α : Type} (f g : α → Bool) (x : α) (l : List α) :
    ((replaceFirst g x l).filter f).length ≤ (l.filter f).length + if f x then 1 else 0 := by
  induction l with
  | nil => simp [replaceFirst]
  | cons y ys ih =>
    unfold replaceFirst
    split
    · cases hx : f x <;> cases hy : f y <;> simp [hx, hy]
    · cases hy : f y
      · simpa [hy] using ih
      · simp only [List.filter_cons_of_pos hy, List.length_cons]; omega

theorem filter_displace_length (f : Queued → Bool) (gs : List (Queued → Bool)) :
    ((displace q gs l).filter f).length ≤ (l.filter f).length + if f q then 1 else 0 := by
  induction gs with
  | nil => exact Nat.le_add_right _ _
  | cons g gs ih =>
    unfold displace
    split
    · have hle : ((l.eraseP g).filter f).length ≤ (l.filter f).length :=
        List.Sublist.length_le (List.eraseP_sublist.filter f)
      cases hq : f q <;> simp [List.filter_append, hq, hle]
    · exact ih

theorem filter_enqueue_length (f : Queued → Bool) :
    ((enqueue q l).1.filter f).length ≤ (l.filter f).length + if f q then 1 else 0 := by
  unfold enqueue
  split
  · cases hq : f q <;> simp [List.filter_append, hq]
  · unfold enqueueFull
    split
    · split
      · exact filter_replaceFirst_length _ _ _ _
      · exact Nat.le_add_right _ _
    all_goals exact filter_displace_length _ _

theorem filter_fieldChoice_length {rest : List Queued} (f : Queued → Bool) (h : fieldChoice l = some (q, rest)) :
    (l.filter f).length = (rest.filter f).length + if f q then 1 else 0 := by
  have herase : ∀ (g : Queued → Bool) (l : List Queued), l.find? g = some q →
      (l.filter f).length = ((l.eraseP g).filter f).length + if f q then 1 else 0 := by
    intro g l
    induction l with
    | nil => intro h; cases h
    | cons y ys ih =>
      intro h
      by_cases hg : g y = true
      · obtain rfl : y = q := by simpa [List.find?_cons, hg] using h
        cases hy : f y <;> simp [hg, hy]
      · have := ih (by simpa [List.find?_cons, hg] using h)
        rw [List.eraseP_cons_of_neg hg]
        cases hy : f y
        · simpa [hy] using this
        · simp only [List.filter_cons_of_pos hy, List.length_cons]; omega
  unfold fieldChoice at h
  split at h
  · rename_i y hy
    cases h
    exact herase _ _ hy
  · split at h
    · cases h
    · cases h
      cases hq : f q <;> simp [hq]

theorem Queued.isActionOf_iff : q.isActionOf a = true ↔ ∃ d, q.cls = .action a d := by
  unfold Queued.isActionOf
  split <;> simp_all

theorem none_queued_of_filter_le (h : (l.filter (Queued.isActionOf a)).length + 1 ≤ 1) :
    ∀ q ∈ l, q.isActionOf a = false := by
  have hnil : l.filter (Queued.isActionOf a) = [] := List.length_eq_zero_iff.mp (by omega)
  exact fun q hq => by simpa using List.filter_eq_nil_iff.mp hnil q hq

/-- R10, R138: the entry whose telegram stands queued. -/
def BackedBy (actions : List ActionEntry) (q : Queued) : Prop :=
  ∀ a d, q.cls = .action a d → ∃ e ∈ actions, e.actuator = a ∧ e.direction = d ∧ ∃ n, e.state = .issued n false q.tel

theorem BackedBy.of_plain {actions : List ActionEntry} (h : ∀ a, q.isActionOf a = false) : BackedBy actions q := by
  intro a d hc
  have hq := h a
  rw [Queued.isActionOf_iff.mpr ⟨d, hc⟩] at hq
  cases hq

/-- The standing of another actuator's entry is of no account. -/
theorem BackedBy.setStanding_of_ne {actions : List ActionEntry} {b : Bool} (hq : q.isActionOf a = false)
    (h : BackedBy actions q) : BackedBy (setStanding a b actions) q := by
  intro c d hc
  obtain ⟨e, he, ha, hd, n, hs⟩ := h c d hc
  have hne : c ≠ a := by
    rintro rfl
    rw [Queued.isActionOf_iff.mpr ⟨d, hc⟩] at hq
    cases hq
  refine ⟨e, List.mem_map.mpr ⟨e, he, ?_⟩, ha, hd, n, hs⟩
  rw [if_neg (by simp [ActionEntry.isIssuedFor_of_ne (ha ▸ hne)])]

theorem matched_fieldArbitrate (h : ActionTelegramsMatched tr) : ActionTelegramsMatched tr.fieldArbitrate := by
  obtain e | ⟨q, rest, -, hc, e⟩ := tr.fieldArbitrate_cases <;> rw [e]
  · exact h
  · obtain ⟨hcount, hbacked⟩ := h
    have hlen := fun b => filter_fieldChoice_length (Queued.isActionOf b) hc
    have hrest := (mem_of_fieldChoice hc).2
    refine ⟨fun b => ?_, fun x hx => ?_⟩
    · exact (Nat.le_add_right _ _).trans ((hlen b).symm.trans_le (hcount b))
    · have hx' : BackedBy tr.actions x := hbacked x (hrest.subset hx)
      show BackedBy (noteSent q tr.actions) x
      unfold noteSent
      split
      · rename_i b d hq
        refine BackedBy.setStanding_of_ne (none_queued_of_filter_le (l := rest) ?_ x hx) hx'
        have hone := (hlen b).symm.trans_le (hcount b)
        rwa [if_pos (Queued.isActionOf_iff.mpr ⟨d, hq⟩)] at hone
      · exact hx'

theorem matched_placeField {tb : Tables} (h : ActionTelegramsMatched tr)
    (hnone : ∀ b, q.isActionOf b = true → ∀ x ∈ tr.field.queue, x.isActionOf b = false) (hq : BackedBy tr.actions q) :
    ActionTelegramsMatched (tr.placeField tb q) := by
  obtain ⟨ctl, e⟩ := Traffic.placeField_eq tb q tr
  rw [e]
  obtain ⟨hcount, hbacked⟩ := h
  refine matched_fieldArbitrate ⟨fun b => (filter_enqueue_length _).trans ?_, fun x hx => ?_⟩
  · cases hb : q.isActionOf b
    · simpa using hcount b
    · have : tr.field.queue.filter (Queued.isActionOf b) = [] :=
        List.filter_eq_nil_iff.mpr fun x hx => by simp [hnone b hb x hx]
      simp [this]
  · rcases mem_enqueue hx with rfl | hx
    · exact hq
    · exact hbacked x hx

/-- No action telegram of an actuator without an ISSUED entry stands queued. -/
theorem none_queued_of_none_issued (h : ActionTelegramsMatched tr) (hnone : ∀ e ∈ tr.actions, e.isIssuedFor a = false) :
    ∀ x ∈ tr.field.queue, x.isActionOf a = false := by
  intro x hx
  by_contra hx'
  obtain ⟨d, hd⟩ := Queued.isActionOf_iff.mp (by simpa using hx')
  obtain ⟨e, he, ha, -, n, hs⟩ := h.2 x hx a d hd
  have := ActionEntry.isIssuedFor_iff.mpr ⟨ha, n, false, x.tel, hs⟩
  rw [hnone e he] at this
  cases this

theorem eq_of_issuedOnce {e e' : ActionEntry} (h : IssuedOnce tr) (he : e ∈ tr.actions) (he' : e' ∈ tr.actions)
    (hi : e.isIssuedFor a = true) (hi' : e'.isIssuedFor a = true) : e = e' := by
  have h1 := List.mem_filter.mpr ⟨he, hi⟩
  have h2 := List.mem_filter.mpr ⟨he', hi'⟩
  match hl : tr.actions.filter (ActionEntry.isIssuedFor a), h a with
  | [], _ => rw [hl] at h1; cases h1
  | [x], _ =>
    rw [hl] at h1 h2
    exact (List.mem_singleton.mp h1).trans (List.mem_singleton.mp h2).symm
  | _ :: _ :: _, hle => simp at hle

theorem mem_markIssued_of_issued {n d k : Nat} {tel tel' : Telegram} {b : Bool} {l : List ActionEntry} {e : ActionEntry}
    (he : e ∈ l) (hs : e.state = .issued k b tel') : e ∈ markIssued a n d tel l := by
  induction l with
  | nil => cases he
  | cons x xs ih =>
    unfold markIssued
    split
    · rename_i hw
      rcases List.mem_cons.mp he with rfl | he
      · simp [ActionEntry.isWaitingFor, hs] at hw
      · exact List.mem_cons_of_mem _ he
    · rcases List.mem_cons.mp he with rfl | he
      · exact List.mem_cons_self
      · exact List.mem_cons_of_mem _ (ih he)

theorem mem_markIssued_of_find {n d : Nat} {tel : Telegram} {l : List ActionEntry} {e : ActionEntry}
    (he : l.find? (ActionEntry.isWaitingFor a) = some e) :
    { e with value := n, state := .issued d false tel } ∈ markIssued a n d tel l := by
  induction l with
  | nil => cases he
  | cons x xs ih =>
    unfold markIssued
    split
    · rename_i hw
      obtain rfl : x = e := by simpa [List.find?_cons, hw] using he
      exact List.mem_cons_self
    · rename_i hw
      exact List.mem_cons_of_mem _ (ih (by simpa [List.find?_cons, hw] using he))

theorem Prim.matched (h : Prim v True tr tr') (h1 : IssuedOnce tr) (h0 : ActionTelegramsMatched tr) :
    ActionTelegramsMatched tr' := by
  have hplain : ∀ {actions : List ActionEntry}, (∀ x ∈ tr.field.queue, BackedBy tr.actions x → BackedBy actions x) →
      ActionTelegramsMatched { tr with actions := actions } :=
    fun hk => ⟨h0.1, fun x hx => hk x hx (h0.2 x hx)⟩
  cases h with
  | placeControl | raise | freeControl | clearOverruns | history | pool | park => exact h0
  | placeField q hq =>
    exact matched_placeField h0 (fun b hb => by simp [hq b] at hb) (.of_plain hq)
  | freeField => exact matched_fieldArbitrate h0
  | issue a n hnone =>
    have hqueue := none_queued_of_none_issued h0 (hnone trivial)
    obtain e | ⟨cp, x, -, hx, e⟩ := tr.issue_cases v a n <;> rw [e]
    · exact h0
    · refine matched_placeField (hplain ?_) (fun b hb => ?_) ?_
      · intro y _ hb c d hc
        obtain ⟨z, hz, ha, hd, k, hs⟩ := hb c d hc
        exact ⟨z, mem_markIssued_of_issued hz hs, ha, hd, k, hs⟩
      · obtain rfl : a = b := by simpa [Queued.isActionOf] using hb
        exact hqueue
      · rintro c d hc
        cases hc
        exact ⟨_, mem_markIssued_of_find hx, (ActionEntry.isWaitingFor_iff.mp (List.find?_some hx)).1, rfl, _, rfl⟩
  | attach a x hx =>
    obtain e | ⟨k, tel, hs, e⟩ := tr.attach_cases v a x <;> rw [e]
    · exact h0
    · have hmem := List.mem_of_find?_eq_some hx
      have hi : x.isIssuedFor a = true := List.find?_some hx
      have hqueue : ∀ y ∈ tr.field.queue, y.isActionOf a = false := by
        intro y hy
        by_contra hy'
        obtain ⟨d, hd⟩ := Queued.isActionOf_iff.mp (by simpa using hy')
        obtain ⟨z, hz, ha, -, n, hz'⟩ := h0.2 y hy a d hd
        obtain rfl := eq_of_issuedOnce h1 hmem hz hi (ActionEntry.isIssuedFor_iff.mpr ⟨ha, _, _, _, hz'⟩)
        rw [hs] at hz'
        cases hz'
      refine matched_placeField (hplain fun y hy => BackedBy.setStanding_of_ne (hqueue y hy)) (fun b hb => ?_) ?_
      · obtain rfl : a = b := by simpa [Queued.isActionOf] using hb
        exact hqueue
      · rintro c d hc
        cases hc
        refine ⟨x.withStanding false, List.mem_map.mpr ⟨x, hmem, if_pos hi⟩, ?_, by simp, k, ?_⟩
        · simpa using (ActionEntry.isIssuedFor_iff.mp hi).1
        · simp [ActionEntry.withStanding, hs]
  | removeIssued a =>
    refine ⟨fun b => (List.Sublist.length_le (List.filter_sublist.filter _)).trans (h0.1 b), fun x hx c d hc => ?_⟩
    obtain ⟨hx, hxa⟩ := List.mem_filter.mp hx
    obtain ⟨z, hz, ha, hd, n, hs⟩ := h0.2 x hx c d hc
    have hne : c ≠ a := by
      rintro rfl
      simp [Queued.isActionOf_iff.mpr ⟨d, hc⟩] at hxa
    exact ⟨z, (List.mem_eraseP_of_neg (by simp [ActionEntry.isIssuedFor_of_ne (ha ▸ hne)])).mpr hz, ha, hd, n, hs⟩
  | dropWaiting l hl hsame =>
    refine hplain fun y _ hb c d hc => ?_
    obtain ⟨z, hz, ha, hd, k, hs⟩ := hb c d hc
    have hz' : z ∈ tr.actions.filter ActionEntry.isIssued :=
      List.mem_filter.mpr ⟨hz, ActionEntry.isIssued_iff.mpr ⟨_, _, _, hs⟩⟩
    exact ⟨z, (List.mem_filter.mp (hsame ▸ hz')).1, ha, hd, k, hs⟩
  | join e n hs =>
    refine hplain fun y _ hb c d hc => ?_
    obtain ⟨z, hz, hrest⟩ := hb c d hc
    exact ⟨z, List.mem_append_left _ hz, hrest⟩

/-- Both together, which a run keeps (R10, R135, R138). -/
theorem Prims.matched (h : Prims v True tr tr') (h1 : IssuedOnce tr) (h0 : ActionTelegramsMatched tr) :
    ActionTelegramsMatched tr' :=
  (h.keeps (P := fun t => IssuedOnce t ∧ ActionTelegramsMatched t)
    (fun _ _ hp hi => ⟨hp.issuedOnce hi.1, hp.matched hi.1 hi.2⟩) ⟨h1, h0⟩).2

end matched

end Sys2Proof.Machine

/-! The line of an actuator (R135) through each operation of the Action Queue, read with every telegram standing as SENT,
and what each operation leaves of the Hold Pool. -/

namespace Sys2Proof.Machine

/-- The line of an actuator with every telegram standing read as SENT. -/
def restLine (tr : Traffic) (a : Actuator) : List ActionEntry := (lineOf tr a).map (ActionEntry.withStanding true)

section lines

variable {v : View} {tb : Tables} {tr tr' tr'' : Traffic} {a b : Actuator} {e w : ActionEntry} {rest l m : List ActionEntry}

/-! ### Lists of entries -/

theorem mem_lineOf : e ∈ lineOf tr a ↔ e ∈ tr.actions ∧ e.actuator = a := by simp [lineOf]

theorem filter_actuator_setStanding (c : Actuator) (x : Bool) (l : List ActionEntry) :
    ((setStanding c x l).filter fun e => decide (e.actuator = b)).map (ActionEntry.withStanding true)
      = (l.filter fun e => decide (e.actuator = b)).map (ActionEntry.withStanding true) := by
  induction l with
  | nil => rfl
  | cons e es ih =>
    have hact : (if e.isIssuedFor c then e.withStanding x else e).actuator = e.actuator := by split <;> simp
    have hnorm : (if e.isIssuedFor c then e.withStanding x else e).withStanding true = e.withStanding true := by
      split <;> simp
    simp only [setStanding, List.map_cons, List.filter_cons, hact] at ih ⊢
    split
    · simp only [List.map_cons, hnorm, ih]
    · exact ih

theorem filter_markIssued_of_ne {n d : Nat} {tel : Telegram} (h : b ≠ a) (l : List ActionEntry) :
    ((markIssued a n d tel l).filter fun e => decide (e.actuator = b)) = l.filter fun e => decide (e.actuator = b) := by
  induction l with
  | nil => rfl
  | cons e es ih =>
    unfold markIssued
    split
    · rename_i hw
      have he := (ActionEntry.isWaitingFor_iff.mp hw).1
      have hne : ¬e.actuator = b := fun hb => h (hb.symm.trans he)
      simp [hne]
    · simp only [List.filter_cons, ih]

theorem filter_markIssued_self {n d : Nat} {tel : Telegram} (l : List ActionEntry) :
    ((markIssued a n d tel l).filter fun e => decide (e.actuator = a))
      = markIssued a n d tel (l.filter fun e => decide (e.actuator = a)) := by
  induction l with
  | nil => rfl
  | cons e es ih =>
    have hcons : ∀ x xs, markIssued a n d tel (x :: xs) =
        if x.isWaitingFor a then { x with value := n, state := .issued d false tel } :: xs
        else x :: markIssued a n d tel xs := fun _ _ => rfl
    by_cases hw : e.isWaitingFor a = true
    · have he := (ActionEntry.isWaitingFor_iff.mp hw).1
      rw [hcons, if_pos hw, List.filter_cons_of_pos (by simpa using he), List.filter_cons_of_pos (by simpa using he), hcons,
        if_pos hw]
    · rw [hcons, if_neg hw]
      by_cases he : e.actuator = a
      · rw [List.filter_cons_of_pos (by simpa using he), List.filter_cons_of_pos (by simpa using he), hcons, if_neg hw, ih]
      · rw [List.filter_cons_of_neg (by simpa using he), List.filter_cons_of_neg (by simpa using he), ih]

theorem length_markIssued {n d : Nat} {tel : Telegram} (l : List ActionEntry) : (markIssued a n d tel l).length = l.length := by
  induction l with
  | nil => rfl
  | cons e es ih => unfold markIssued; split <;> simp [ih]

/-- An erased element that the filter lets through is erased behind the filter. -/
theorem filter_eraseP_of_imp {α : Type} {f g : α → Bool} (h : ∀ x, g x = true → f x = true) (l : List α) :
    (l.eraseP g).filter f = (l.filter f).eraseP g := by
  induction l with
  | nil => rfl
  | cons x xs ih =>
    by_cases hg : g x = true
    · simp [hg, h x hg]
    · rw [List.eraseP_cons_of_neg hg, List.filter_cons, List.filter_cons]
      split
      · rw [List.eraseP_cons_of_neg hg, ih]
      · exact ih

theorem find?_filter_of_imp {α : Type} {f g : α → Bool} (h : ∀ x, g x = true → f x = true) (l : List α) :
    (l.filter f).find? g = l.find? g := by
  induction l with
  | nil => rfl
  | cons x xs ih =>
    by_cases hg : g x = true
    · simp [h x hg, hg]
    · rw [List.find?_cons_of_neg hg, List.filter_cons]
      split
      · rw [List.find?_cons_of_neg hg, ih]
      · exact ih

theorem ActionEntry.actuator_of_isIssuedFor (h : e.isIssuedFor a = true) : decide (e.actuator = a) = true := by
  simpa using (ActionEntry.isIssuedFor_iff.mp h).1

theorem ActionEntry.actuator_of_isWaitingFor (h : e.isWaitingFor a = true) : decide (e.actuator = a) = true := by
  simpa using (ActionEntry.isWaitingFor_iff.mp h).1

theorem ActionEntry.isWaitingFor_of_ne (h : e.actuator ≠ a) : e.isWaitingFor a = false := by
  unfold ActionEntry.isWaitingFor
  split <;> simp [h]

/-- The ISSUED entry of an actuator is that of its line. -/
theorem issuedEntry_eq_find? : issuedEntry tr a = (lineOf tr a).find? (ActionEntry.isIssuedFor a) :=
  (find?_filter_of_imp (fun _ => ActionEntry.actuator_of_isIssuedFor) _).symm

theorem find?_waiting_eq_line : tr.actions.find? (ActionEntry.isWaitingFor a) = (lineOf tr a).find? (ActionEntry.isWaitingFor a) :=
  (find?_filter_of_imp (fun _ => ActionEntry.actuator_of_isWaitingFor) _).symm

/-! ### Lines through the elementary operations -/

theorem restLine_of_actions (h : tr'.actions = tr.actions) : restLine tr' a = restLine tr a := by
  unfold restLine lineOf
  rw [h]

theorem restLine_of_same (h : SameEntries tr'.actions tr.actions) : restLine tr' a = restLine tr a := by
  obtain ⟨c, h | h⟩ := h
  · exact restLine_of_actions h
  · unfold restLine lineOf
    rw [h, filter_actuator_setStanding]

theorem restLine_placeField {q : Queued} : restLine (tr.placeField tb q) a = restLine tr a :=
  restLine_of_same (Traffic.placeField_actions _ _ _)

theorem SameEntries.length_eq (h : SameEntries l m) : l.length = m.length := by
  obtain ⟨c, rfl | rfl⟩ := h
  · rfl
  · exact setStanding_length _

theorem issue_length (n : Nat) : (tr.issue v a n).actions.length = tr.actions.length := by
  obtain h | ⟨cp, e, -, -, h⟩ := tr.issue_cases v a n <;> rw [h]
  exact (Traffic.placeField_actions _ _ _).length_eq.trans (length_markIssued _)

theorem attach_length : (tr.attach v a e).actions.length = tr.actions.length := by
  obtain h | ⟨d, tel, -, h⟩ := tr.attach_cases v a e <;> rw [h]
  exact (Traffic.placeField_actions _ _ _).length_eq.trans (setStanding_length _)

theorem restLine_issue_of_ne (n : Nat) (h : b ≠ a) : restLine (tr.issue v a n) b = restLine tr b := by
  obtain e | ⟨cp, x, -, -, e⟩ := tr.issue_cases v a n <;> rw [e]
  rw [restLine_placeField]
  simp only [restLine, lineOf, filter_markIssued_of_ne h]

/-- R138: an issue to a line led by a WAITING entry makes that entry ISSUED. -/
theorem restLine_issue_self (n : Nat) {cp : PointEntry} (hcp : commandPoint v.tables a = some cp)
    (hl : lineOf tr a = w :: rest) (hw : w.state = .waiting) :
    ∃ x, restLine (tr.issue v a n) a = x :: rest.map (ActionEntry.withStanding true) ∧ x.isIssuedFor a = true
      ∧ x.direction = w.direction := by
  have hwa : w.isWaitingFor a = true :=
    ActionEntry.isWaitingFor_iff.mpr ⟨(mem_lineOf.mp (hl ▸ List.mem_cons_self)).2, hw⟩
  have hfind : tr.actions.find? (ActionEntry.isWaitingFor a) = some w := by
    rw [find?_waiting_eq_line, hl, List.find?_cons_of_pos hwa]
  have hact := (ActionEntry.isWaitingFor_iff.mp hwa).1
  unfold lineOf at hl
  unfold Traffic.issue
  rw [hcp, hfind]
  simp only [restLine_placeField]
  simp only [restLine, lineOf, filter_markIssued_self, hl, markIssued, hwa, if_true, List.map_cons]
  exact ⟨_, rfl, by rw [ActionEntry.withStanding_isIssuedFor]; simp [ActionEntry.isIssuedFor, hact], by simp⟩

theorem restLine_attach : restLine (tr.attach v a e) b = restLine tr b := by
  obtain h | ⟨d, tel, -, h⟩ := tr.attach_cases v a e <;> rw [h]
  rw [restLine_placeField]
  simp only [restLine, lineOf, filter_actuator_setStanding]

theorem lineOf_removeIssued_of_ne (h : b ≠ a) : lineOf (tr.removeIssued a) b = lineOf tr b := by
  unfold lineOf
  rw [Traffic.removeIssued_actions]
  refine filter_eraseP_of_disjoint (fun x hx => ActionEntry.isIssuedFor_of_ne ?_) _
  rw [of_decide_eq_true hx]
  exact h

theorem lineOf_removeIssued_self : lineOf (tr.removeIssued a) a = (lineOf tr a).eraseP (ActionEntry.isIssuedFor a) :=
  filter_eraseP_of_imp (fun _ => ActionEntry.actuator_of_isIssuedFor) _

theorem lineOf_cancelWaiting_of_ne (reason : Reason) (h : b ≠ a) : lineOf (tr.cancelWaiting tb a reason) b = lineOf tr b := by
  unfold lineOf
  rw [cancelWaiting_actions, List.filter_filter]
  refine List.filter_congr fun e _ => ?_
  by_cases he : e.actuator = b
  · simp [he, ActionEntry.isWaitingFor_of_ne (he ▸ h)]
  · simp [he]

theorem lineOf_cancelWaiting_self (reason : Reason) :
    lineOf (tr.cancelWaiting tb a reason) a = (lineOf tr a).filter fun e => !e.isWaitingFor a := by
  unfold lineOf
  rw [cancelWaiting_actions, List.filter_filter, List.filter_filter]
  simp only [Bool.and_comm]

/-! ### A line in order (R135) -/

/-- R135: a line in order is empty, or led by its one ISSUED entry with only non-safe entries waiting. -/
def lineShaped (a : Actuator) : List ActionEntry → Prop
  | [] => True
  | e :: rest => e.isIssuedFor a = true ∧ ∀ x ∈ rest, x.state = .waiting ∧ x.direction = .nonSafe

theorem ActionEntry.withStanding_of_waiting {x : Bool} (h : e.state = .waiting) : e.withStanding x = e := by
  simp [ActionEntry.withStanding, h]

theorem ActionEntry.state_withStanding_waiting {x : Bool} : (e.withStanding x).state = .waiting ↔ e.state = .waiting := by
  unfold ActionEntry.withStanding
  split <;> simp [*]

theorem lineShaped_map {x : Bool} : lineShaped a (l.map (ActionEntry.withStanding x)) ↔ lineShaped a l := by
  cases l with
  | nil => rfl
  | cons e es => simp [lineShaped, ActionEntry.state_withStanding_waiting]

theorem linesOrdered_iff : LinesOrdered tr ↔ ∀ a, lineShaped a (restLine tr a) := by
  refine forall_congr' fun a => ?_
  rw [restLine, lineShaped_map]
  cases lineOf tr a <;> rfl

theorem lineShaped_of_ordered (h : LinesOrdered tr) (a : Actuator) : lineShaped a (lineOf tr a) :=
  lineShaped_map.mp (linesOrdered_iff.mp h a)

theorem orderedSafe_iff : orderedSafe tr a ↔ ∃ e, restLine tr a = [e] ∧ e.isIssuedFor a = true ∧ e.direction = .safe := by
  unfold orderedSafe restLine
  constructor
  · rintro ⟨e, h, hi, hd⟩
    exact ⟨e.withStanding true, by rw [h]; rfl, by simpa using hi, by simpa using hd⟩
  · rintro ⟨e, h, hi, hd⟩
    obtain ⟨x, hx, rfl⟩ := List.map_eq_singleton_iff.mp h
    exact ⟨x, hx, by simpa using hi, by simpa using hd⟩

theorem lineOf_eq_nil_iff : lineOf tr a = [] ↔ restLine tr a = [] := by simp [restLine]

/-! ### Entries removed to make room (R146) -/

/-- Between the two the line has lost WAITING entries alone. -/
def LineTrimmed (b : Actuator) (tr tr' : Traffic) : Prop :=
  (restLine tr' b).Sublist (restLine tr b)
    ∧ (restLine tr' b).filter ActionEntry.isIssued = (restLine tr b).filter ActionEntry.isIssued

theorem LineTrimmed.of_eq (h : restLine tr' b = restLine tr b) : LineTrimmed b tr tr' := by
  unfold LineTrimmed
  rw [h]
  exact ⟨.refl _, rfl⟩

theorem LineTrimmed.of_actions (h : tr'.actions = tr.actions) : LineTrimmed b tr tr' := .of_eq (restLine_of_actions h)

theorem LineTrimmed.trans (h : LineTrimmed b tr tr') (h' : LineTrimmed b tr' tr'') : LineTrimmed b tr tr'' :=
  ⟨h'.1.trans h.1, h'.2.trans h.2⟩

theorem filter_isIssued_map {x : Bool} :
    (l.map (ActionEntry.withStanding x)).filter ActionEntry.isIssued
      = (l.filter ActionEntry.isIssued).map (ActionEntry.withStanding x) := by
  rw [List.filter_map]
  congr 1
  refine List.filter_congr fun e _ => ?_
  simp [ActionEntry.isIssued]

/-- Where only WAITING entries leave the queue, each line is trimmed. -/
theorem LineTrimmed.of_sublist (h : l.Sublist tr.actions)
    (hi : l.filter ActionEntry.isIssued = tr.actions.filter ActionEntry.isIssued) :
    LineTrimmed b tr { tr with actions := l } := by
  refine ⟨(h.filter _).map _, ?_⟩
  unfold restLine lineOf
  rw [filter_isIssued_map, filter_isIssued_map, List.filter_comm, hi, List.filter_comm]

theorem lineShaped_of_trimmed (h : lineShaped a m) (hs : l.Sublist m)
    (hi : l.filter ActionEntry.isIssued = m.filter ActionEntry.isIssued) : lineShaped a l := by
  cases m with
  | nil => rw [List.sublist_nil.mp hs]; trivial
  | cons e es =>
    obtain ⟨he, hes⟩ := h
    have hmem : e ∈ l := by
      have : e ∈ (e :: es).filter ActionEntry.isIssued :=
        List.mem_filter.mpr ⟨List.mem_cons_self, ActionEntry.isIssued_of_isIssuedFor he⟩
      exact (List.mem_filter.mp (hi ▸ this)).1
    rcases List.sublist_cons_iff.mp hs with h | ⟨l', rfl, h⟩
    · have hw := (hes e (h.subset hmem)).1
      obtain ⟨-, d, sent, tel, hs⟩ := ActionEntry.isIssuedFor_iff.mp he
      rw [hs] at hw
      cases hw
    · exact ⟨he, fun x hx => hes x (h.subset hx)⟩

theorem makeRoom_trims (tr : Traffic) : LineTrimmed b tr (tr.makeRoom tb) := by
  unfold Traffic.makeRoom
  split
  · exact .of_eq rfl
  · split
    · exact (LineTrimmed.of_sublist List.eraseP_sublist
        (filter_eraseP_of_disjoint (fun _ => ActionEntry.isIssued_not_waiting) _)).trans (.of_actions (by simp))
    · exact .of_eq rfl

/-! ### What an operation on another actuator leaves of a line -/

theorem lineOf_join_of_ne {n : Byte} (h : e.actuator ≠ b) :
    lineOf { tr with actions := tr.actions ++ [e], tagCounter := n } b = lineOf tr b := by
  simp [lineOf, h]

theorem lineOf_join_self {n : Byte} (h : e.actuator = b) :
    lineOf { tr with actions := tr.actions ++ [e], tagCounter := n } b = lineOf tr b ++ [e] := by
  simp [lineOf, h]

theorem enlist_line_of_ne (n : Nat) (r : Requester) (c : Carried) (h : b ≠ a) :
    restLine (tr.enlist v a n r c).1 b = restLine tr b := by
  have hjoin : ∀ e : ActionEntry, e.actuator = a → restLine { tr with actions := tr.actions ++ [e] } b = restLine tr b := by
    intro e he
    unfold restLine
    rw [show lineOf { tr with actions := tr.actions ++ [e] } b = lineOf tr b from
      lineOf_join_of_ne (n := tr.tagCounter) (he ▸ h.symm)]
  unfold Traffic.enlist
  simp only
  split
  · rfl
  · split
    · rfl
    · split
      · exact (restLine_issue_of_ne _ h).trans (hjoin _ rfl)
      · exact hjoin _ rfl

theorem promoteLine_line_of_ne (h : b ≠ a) (l : List ActionEntry) :
    ∀ tr : Traffic, restLine (tr.promoteLine v a l) b = restLine tr b := by
  induction l with
  | nil => exact fun _ => rfl
  | cons e es ih =>
    intro tr
    have placed : restLine
        (if (judge v tr a e.value).value < e.value then
          (tr.issue v a (judge v tr a e.value).value).answerEntry v.tables e .clamped (judge v tr a e.value).reason
            (judge v tr a e.value).value
        else tr.issue v a (judge v tr a e.value).value) b = restLine tr b := by
      split
      · exact (restLine_of_actions Traffic.answerEntry_actions).trans (restLine_issue_of_ne _ h)
      · exact restLine_issue_of_ne _ h
    have dropped : restLine
        (Traffic.promoteLine v a es
          (Traffic.answerEntry v.tables e .cancelled (judge v tr a e.value).reason 0
            { tr with actions := tr.actions.eraseP (ActionEntry.isWaitingFor a) })) b = restLine tr b := by
      rw [ih]
      unfold restLine lineOf
      rw [Traffic.answerEntry_actions]
      congr 1
      refine filter_eraseP_of_disjoint (fun x hx => ActionEntry.isWaitingFor_of_ne ?_) _
      rw [of_decide_eq_true hx]
      exact h
    unfold Traffic.promoteLine
    simp only
    split
    · exact placed
    · exact placed
    · exact dropped
    · exact dropped

theorem retire_line_of_ne (h : b ≠ e.actuator) : restLine (tr.retire v e) b = restLine tr b := by
  unfold Traffic.retire Traffic.promote
  simp only
  rw [promoteLine_line_of_ne h]
  exact congrArg (List.map _) (lineOf_removeIssued_of_ne h)

theorem dropFailed_line_of_ne (h : b ≠ a) : restLine (tr.dropFailed tb a) b = restLine tr b := by
  unfold Traffic.dropFailed restLine
  rw [lineOf_cancelWaiting_of_ne _ h, lineOf_removeIssued_of_ne h]

theorem issueSafe_trims (o : Option Requester) (c : Carried) (h : b ≠ a) : LineTrimmed b tr (tr.issueSafe v a o c) := by
  unfold Traffic.issueSafe
  simp only
  refine (makeRoom_trims (tb := v.tables) tr).trans (.of_eq ?_)
  rw [restLine_issue_of_ne _ h]
  unfold restLine
  rw [lineOf_join_of_ne (e := { actuator := a, .. }) h.symm]

/-- R146: a safe command for another actuator takes of a line at most one WAITING entry. -/
theorem takeSafe_trims (o : Option Requester) (c : Carried) (h : b ≠ a) : LineTrimmed b tr (tr.takeSafe v a o c) := by
  have hcancel : LineTrimmed b tr (tr.cancelWaiting v.tables a .safePreempt) :=
    .of_eq (congrArg (List.map _) (lineOf_cancelWaiting_of_ne _ h))
  unfold Traffic.takeSafe
  simp only
  refine hcancel.trans ?_
  split
  · exact issueSafe_trims _ _ h
  · split
    · exact .of_eq restLine_attach
    · refine LineTrimmed.trans (.of_eq ?_) (issueSafe_trims _ _ h)
      rw [restLine, lineOf_removeIssued_of_ne h]
      exact restLine_of_actions (by simp)

theorem originate_trims (h : b ≠ a) : LineTrimmed b tr (tr.originate v a) := by
  unfold Traffic.originate
  split
  · exact takeSafe_trims _ _ h
  · exact .of_eq rfl

/-! ### The line of the actuator itself -/

theorem lineShaped_waiting (h : lineShaped a l) (hi : l.find? (ActionEntry.isIssuedFor a) = none) : l = [] := by
  cases l with
  | nil => rfl
  | cons e es => simp [h.1] at hi

theorem lineShaped_not_waiting (h : lineShaped a (e :: rest)) (hr : ∀ x ∈ rest, x.actuator = a) :
    (e :: rest).filter (fun x => !x.isWaitingFor a) = [e] := by
  obtain ⟨he, hrest⟩ := h
  have hnot : e.isWaitingFor a = false := ActionEntry.isIssued_not_waitingFor (ActionEntry.isIssued_of_isIssuedFor he)
  rw [List.filter_cons_of_pos (by simp [hnot]), List.filter_eq_nil_iff.mpr]
  intro x hx
  simp [ActionEntry.isWaitingFor_iff.mpr ⟨hr x hx, (hrest x hx).1⟩]

/-- R144: with its WAITING entries cancelled a line in order is empty, or its ISSUED entry alone. -/
theorem cancelWaiting_line (reason : Reason) (h : lineShaped a (lineOf tr a)) :
    lineOf (tr.cancelWaiting tb a reason) a = [] ∧ lineOf tr a = [] ∧ issuedEntry (tr.cancelWaiting tb a reason) a = none
      ∨ ∃ e rest, lineOf tr a = e :: rest ∧ lineOf (tr.cancelWaiting tb a reason) a = [e] ∧ e.isIssuedFor a = true
          ∧ issuedEntry (tr.cancelWaiting tb a reason) a = some e := by
  have hline := lineOf_cancelWaiting_self (tb := tb) (tr := tr) (a := a) reason
  cases hl : lineOf tr a with
  | nil =>
    rw [hl] at hline
    exact .inl ⟨hline, rfl, by rw [issuedEntry_eq_find?, hline]; rfl⟩
  | cons e rest =>
    rw [hl] at h hline
    have hr : ∀ x ∈ rest, x.actuator = a := fun x hx => (mem_lineOf.mp (hl ▸ List.mem_cons_of_mem _ hx)).2
    rw [lineShaped_not_waiting h hr] at hline
    exact .inr ⟨e, rest, rfl, hline, h.1, by rw [issuedEntry_eq_find?, hline]; simp [h.1]⟩

/-- R144: a new safe entry for an actuator without entries is ISSUED alone. -/
theorem issueSafe_line (o : Option Requester) (c : Carried) (hcp : hasCommandPoint v.tables a = true)
    (h : lineOf tr a = []) :
    ∃ x, restLine (tr.issueSafe v a o c) a = [x] ∧ x.isIssuedFor a = true ∧ x.direction = .safe := by
  obtain ⟨cp, hcp⟩ := Option.isSome_iff_exists.mp hcp
  have hroom : lineOf (tr.makeRoom v.tables) a = [] := by
    rw [lineOf_eq_nil_iff] at h ⊢
    exact List.sublist_nil.mp (h ▸ (makeRoom_trims (tb := v.tables) (b := a) tr).1)
  unfold Traffic.issueSafe
  simp only
  exact restLine_issue_self (rest := []) 0 hcp
    (lineOf_join_self (e := { actuator := a, .. }) rfl |>.trans (by rw [hroom]; rfl)) rfl

/-- R144, R145: a safe command leaves its actuator ordered safe. -/
theorem takeSafe_orderedSafe (o : Option Requester) (c : Carried) (hcp : hasCommandPoint v.tables a = true)
    (h : lineShaped a (lineOf tr a)) : orderedSafe (tr.takeSafe v a o c) a := by
  rw [orderedSafe_iff]
  unfold Traffic.takeSafe
  simp only
  obtain ⟨hl, -, hi⟩ | ⟨e, rest, -, hl, he, hi⟩ := cancelWaiting_line (tb := v.tables) .safePreempt h <;> rw [hi]
  · exact issueSafe_line o c hcp hl
  · simp only
    split
    · refine ⟨e.withStanding true, ?_, by simpa using he, by simpa⟩
      rw [restLine_attach, restLine, hl]
      rfl
    · refine issueSafe_line o c hcp ?_
      rw [lineOf_removeIssued_self]
      unfold lineOf at hl ⊢
      rw [Traffic.answerEntry_actions, hl]
      simp [he]

theorem originate_orderedSafe (hcp : hasCommandPoint v.tables a = true) (h : lineShaped a (lineOf tr a)) :
    orderedSafe (tr.originate v a) a := by
  unfold Traffic.originate
  rw [if_pos hcp]
  exact takeSafe_orderedSafe _ _ hcp h

/-- R143: a failed entry leaves its actuator without entries. -/
theorem dropFailed_line (h : lineShaped a (lineOf tr a)) : lineOf (tr.dropFailed tb a) a = [] := by
  unfold Traffic.dropFailed
  rw [lineOf_cancelWaiting_self, lineOf_removeIssued_self]
  cases hl : lineOf tr a with
  | nil => rfl
  | cons e rest =>
    rw [hl] at h
    rw [List.eraseP_cons_of_pos h.1, List.filter_eq_nil_iff]
    intro x hx
    have hact := (mem_lineOf.mp (hl ▸ List.mem_cons_of_mem e hx)).2
    simp [ActionEntry.isWaitingFor_iff.mpr ⟨hact, (h.2 x hx).1⟩]

/-- R137: an admitted command is turned away, waits behind its actuator's entries, or is ISSUED to an empty line. -/
theorem enlist_line (n : Nat) (r : Requester) (c : Carried) (hcp : hasCommandPoint v.tables a = true) :
    restLine (tr.enlist v a n r c).1 a = restLine tr a
      ∨ (restLine tr a).length < Config.lineCapacity
        ∧ ((restLine tr a ≠ [] ∧ ∃ x, restLine (tr.enlist v a n r c).1 a = restLine tr a ++ [x] ∧ x.state = .waiting
              ∧ x.direction = .nonSafe)
          ∨ ∃ x, restLine (tr.enlist v a n r c).1 a = [x] ∧ x.isIssuedFor a = true ∧ x.direction = .nonSafe) := by
  obtain ⟨cp, hcp⟩ := Option.isSome_iff_exists.mp hcp
  have hjoin := lineOf_join_self (tr := tr) (n := tr.tagCounter) (b := a)
    (e := { actuator := a, direction := .nonSafe, value := n, origin := .station r, carried := c, state := .waiting }) rfl
  unfold Traffic.enlist
  simp only
  split
  · exact .inl rfl
  · rename_i hshort
    have hshort' : (restLine tr a).length < Config.lineCapacity := by
      simpa [restLine, lineOf] using hshort
    split
    · exact .inl rfl
    · split
      · rename_i hempty
        have hnil : lineOf tr a = [] := List.isEmpty_iff.mp hempty
        rw [hnil] at hjoin
        exact .inr ⟨hshort', .inr (restLine_issue_self (rest := []) n hcp hjoin rfl)⟩
      · rename_i hempty
        refine .inr ⟨hshort', .inl ⟨?_, ?_⟩⟩
        · rw [Ne, ← lineOf_eq_nil_iff]
          exact fun h => hempty (List.isEmpty_iff.mpr h)
        · refine ⟨{ actuator := a, direction := .nonSafe, value := n, origin := .station r, carried := c, state := .waiting },
            ?_, rfl, rfl⟩
          exact (congrArg (List.map _) hjoin).trans List.map_append

theorem enlist_length_le {n : Nat} (r : Requester) (c : Carried) (h : tr.actions.length ≤ Config.actionCapacity) :
    (tr.enlist v a n r c).1.actions.length ≤ Config.actionCapacity := by
  unfold Traffic.enlist
  simp only
  split
  · exact h
  · split
    · exact h
    · split
      · rw [issue_length, List.length_append, List.length_singleton]; omega
      · rw [List.length_append, List.length_singleton]; omega

/-- R140: promotion of a line of WAITING entries leaves it empty, or led by one of them ISSUED with later ones behind. -/
theorem promoteLine_line (hcp : hasCommandPoint v.tables a = true) (l : List ActionEntry) :
    ∀ tr : Traffic, lineOf tr a = l → (∀ x ∈ l, x.state = .waiting) →
      restLine (tr.promoteLine v a l) a = []
        ∨ ∃ x w rest, restLine (tr.promoteLine v a l) a = x :: rest.map (ActionEntry.withStanding true)
            ∧ x.isIssuedFor a = true ∧ (w :: rest).Sublist l ∧ x.direction = w.direction
            ∧ (x.direction = .nonSafe → (v.passes.get a.pass).mode.isLive = true) := by
  obtain ⟨cp, hcp'⟩ := Option.isSome_iff_exists.mp hcp
  induction l with
  | nil =>
    intro tr hl _
    exact .inl (lineOf_eq_nil_iff.mp hl)
  | cons e es ih =>
    intro tr hl hw
    have he := hw e List.mem_cons_self
    have placed : Allowed (judge v tr a e.value) → ∃ x w rest, restLine
        (if (judge v tr a e.value).value < e.value then
          (tr.issue v a (judge v tr a e.value).value).answerEntry v.tables e .clamped (judge v tr a e.value).reason
            (judge v tr a e.value).value
        else tr.issue v a (judge v tr a e.value).value) a = x :: rest.map (ActionEntry.withStanding true)
            ∧ x.isIssuedFor a = true ∧ (w :: rest).Sublist (e :: es) ∧ x.direction = w.direction
            ∧ (x.direction = .nonSafe → (v.passes.get a.pass).mode.isLive = true) := by
      intro ok
      obtain ⟨x, hx, hi, hd⟩ := restLine_issue_self (judge v tr a e.value).value hcp' hl he
      refine ⟨x, e, es, ?_, hi, .refl _, hd, fun _ => (placeable_of_allowed ok).1⟩
      split
      · exact (restLine_of_actions Traffic.answerEntry_actions).trans hx
      · exact hx
    have hdrop : lineOf (Traffic.answerEntry v.tables e .cancelled (judge v tr a e.value).reason 0
        { tr with actions := tr.actions.eraseP (ActionEntry.isWaitingFor a) }) a = es := by
      have hact := (mem_lineOf.mp (hl ▸ List.mem_cons_self)).2
      unfold lineOf at hl ⊢
      rw [Traffic.answerEntry_actions, filter_eraseP_of_imp (fun _ => ActionEntry.actuator_of_isWaitingFor), hl,
        List.eraseP_cons_of_pos (ActionEntry.isWaitingFor_iff.mpr ⟨hact, he⟩)]
    have dropped := ih _ hdrop fun x hx => hw x (List.mem_cons_of_mem _ hx)
    unfold Traffic.promoteLine
    simp only
    split
    · exact .inr (placed (.inl ‹_›))
    · exact .inr (placed (.inr ‹_›))
    all_goals
      refine dropped.imp_right ?_
      rintro ⟨x, w, rest, hx, hi, hsub, hd⟩
      exact ⟨x, w, rest, hx, hi, hsub.trans (List.sublist_cons_self e es), hd⟩

theorem promoteLine_length_le (l : List ActionEntry) : ∀ tr : Traffic,
    (tr.promoteLine v a l).actions.length ≤ tr.actions.length := by
  induction l with
  | nil => exact fun _ => Nat.le_refl _
  | cons e es ih =>
    intro tr
    have placed :
        (if (judge v tr a e.value).value < e.value then
          (tr.issue v a (judge v tr a e.value).value).answerEntry v.tables e .clamped (judge v tr a e.value).reason
            (judge v tr a e.value).value
        else tr.issue v a (judge v tr a e.value).value).actions.length ≤ tr.actions.length := by
      split
      · rw [Traffic.answerEntry_actions, issue_length]
      · rw [issue_length]
    have dropped : (Traffic.promoteLine v a es
        (Traffic.answerEntry v.tables e .cancelled (judge v tr a e.value).reason 0
          { tr with actions := tr.actions.eraseP (ActionEntry.isWaitingFor a) })).actions.length ≤ tr.actions.length := by
      refine (ih _).trans ?_
      rw [Traffic.answerEntry_actions]
      exact List.length_eraseP_le
    unfold Traffic.promoteLine
    simp only
    split
    · exact placed
    · exact placed
    · exact dropped
    · exact dropped

/-- R140: what retirement leaves of a line in order. -/
theorem retire_line (hcp : hasCommandPoint v.tables a = true) (he : issuedEntry tr a = some e)
    (h : lineShaped a (lineOf tr a)) :
    restLine (tr.retire v e) a = []
      ∨ ∃ (x : ActionEntry) (rest rest' : List ActionEntry), restLine (tr.retire v e) a = x :: rest.map (ActionEntry.withStanding true) ∧ x.isIssuedFor a = true
          ∧ lineOf tr a = e :: rest' ∧ rest.Sublist rest' ∧ (∀ y ∈ rest, y.state = .waiting ∧ y.direction = .nonSafe)
          ∧ (x.direction = .nonSafe → (v.passes.get a.pass).mode.isLive = true) := by
  obtain rfl := issuedEntry_actuator he
  rw [issuedEntry_eq_find?] at he
  cases hl : lineOf tr e.actuator with
  | nil => rw [hl] at he; cases he
  | cons e' rest =>
    rw [hl] at h he
    obtain rfl : e' = e := by simpa [List.find?_cons, h.1] using he
    obtain ⟨hi, hrest⟩ := h
    have hactions : ((tr.removeIssued e'.actuator).actions.filter (ActionEntry.isWaitingFor e'.actuator)) = rest := by
      have hline : lineOf (tr.removeIssued e'.actuator) e'.actuator = rest := by
        rw [lineOf_removeIssued_self, hl, List.eraseP_cons_of_pos hi]
      have hall : rest.filter (ActionEntry.isWaitingFor e'.actuator) = rest := by
        refine List.filter_eq_self.mpr fun x hx => ActionEntry.isWaitingFor_iff.mpr ⟨?_, (hrest x hx).1⟩
        exact (mem_lineOf.mp (hl ▸ List.mem_cons_of_mem _ hx)).2
      rw [← hall, ← hline]
      unfold lineOf
      rw [List.filter_filter]
      refine List.filter_congr fun x _ => ?_
      cases hx : x.isWaitingFor e'.actuator
      · rfl
      · simp [(ActionEntry.isWaitingFor_iff.mp hx).1]
    unfold Traffic.retire Traffic.promote
    simp only [hactions]
    rcases promoteLine_line hcp rest
      { tr.removeIssued e'.actuator with
        history := noteRetired e'.actuator e'.direction (tr.removeIssued e'.actuator).history }
      (show lineOf (tr.removeIssued e'.actuator) e'.actuator = rest by
        rw [lineOf_removeIssued_self, hl, List.eraseP_cons_of_pos hi])
      (fun x hx => (hrest x hx).1) with hnil | ⟨x, w, rest', hx, hix, hsub, -, hlive⟩
    · exact .inl hnil
    · have hsub' : rest'.Sublist rest := (List.sublist_cons_self w rest').trans hsub
      exact .inr ⟨x, rest', rest, hx, hix, rfl, hsub', fun y hy => hrest y (hsub'.subset hy), hlive⟩

/-! ### The Hold Pool is not touched -/

@[simp] theorem issue_pool (n : Nat) : (tr.issue v a n).pool = tr.pool := by
  obtain h | ⟨cp, e, -, -, h⟩ := tr.issue_cases v a n <;> rw [h]
  simp

@[simp] theorem attach_pool : (tr.attach v a e).pool = tr.pool := by
  obtain h | ⟨d, tel, -, h⟩ := tr.attach_cases v a e <;> rw [h]
  simp

theorem foldl_answerEntry_pool {ans : Answer} {reason : Reason} {n : Nat} (l : List ActionEntry) :
    ∀ t : Traffic, (l.foldl (fun t e => t.answerEntry tb e ans reason n) t).pool = t.pool := by
  induction l with
  | nil => exact fun _ => rfl
  | cons e es ih => exact fun t => (ih _).trans Traffic.answerEntry_pool

@[simp] theorem cancelWaiting_pool (reason : Reason) : (tr.cancelWaiting tb a reason).pool = tr.pool :=
  foldl_answerEntry_pool _ _

@[simp] theorem makeRoom_pool : (tr.makeRoom tb).pool = tr.pool := by
  unfold Traffic.makeRoom
  split
  · rfl
  · split
    · simp
    · rfl

@[simp] theorem enlist_pool (n : Nat) (r : Requester) (c : Carried) : (tr.enlist v a n r c).1.pool = tr.pool := by
  unfold Traffic.enlist
  simp only
  split
  · rfl
  · split
    · rfl
    · split <;> simp

@[simp] theorem issueSafe_pool (o : Option Requester) (c : Carried) : (tr.issueSafe v a o c).pool = tr.pool := by
  simp [Traffic.issueSafe]

@[simp] theorem takeSafe_pool (o : Option Requester) (c : Carried) : (tr.takeSafe v a o c).pool = tr.pool := by
  unfold Traffic.takeSafe
  simp only
  split
  · simp
  · split <;> simp

@[simp] theorem originate_pool : (tr.originate v a).pool = tr.pool := by
  unfold Traffic.originate
  split <;> simp

@[simp] theorem dropFailed_pool : (tr.dropFailed tb a).pool = tr.pool := by simp [Traffic.dropFailed]

@[simp] theorem promoteLine_pool (l : List ActionEntry) : ∀ tr : Traffic, (tr.promoteLine v a l).pool = tr.pool := by
  induction l with
  | nil => exact fun _ => rfl
  | cons e es ih =>
    intro tr
    unfold Traffic.promoteLine
    simp only
    split
    · split <;> simp
    · split <;> simp
    · simp [ih]
    · simp [ih]

@[simp] theorem retire_pool : (tr.retire v e).pool = tr.pool := by
  simp [Traffic.retire, Traffic.promote]

/-! ### Room for a safe entry (R144, R146) -/

/-- Every actuator of the part. -/
def allActuators : List Actuator := allPasses.flatMap safeStateOrder

theorem mem_allActuators (a : Actuator) : a ∈ allActuators := by
  cases a with
  | gate p c => fin_cases p <;> fin_cases c <;> decide
  | signal p t => fin_cases p <;> fin_cases t <;> decide
  | breaker p t => fin_cases p <;> fin_cases t <;> decide

/-- R135: a queue of ISSUED entries alone, with none of `a`, holds at most 31. -/
theorem length_lt_of_all_issued (hall : ∀ x ∈ tr.actions, x.isWaiting = false) (hordered : LinesOrdered tr)
    (ha : lineOf tr a = []) : tr.actions.length < Config.actionCapacity := by
  have hissued : ∀ x ∈ tr.actions, x.state ≠ .waiting := fun x hx hs => by simpa [ActionEntry.isWaiting, hs] using hall x hx
  have hone : ∀ b, (lineOf tr b).length ≤ 1 := by
    intro b
    have hshape := lineShaped_of_ordered hordered b
    match hl : lineOf tr b with
    | [] => simp
    | [x] => simp
    | x :: y :: rest =>
      rw [hl] at hshape
      have hy : y ∈ tr.actions := (mem_lineOf.mp (hl ▸ List.mem_cons_of_mem _ List.mem_cons_self)).1
      exact absurd (hshape.2 y List.mem_cons_self).1 (hissued y hy)
  have hnodup : (tr.actions.map ActionEntry.actuator).Nodup := by
    rw [List.nodup_iff_count_le_one]
    intro b
    rw [List.count_eq_countP, List.countP_map, List.countP_eq_length_filter]
    exact hone b
  have hnot : a ∉ tr.actions.map ActionEntry.actuator := by
    intro h
    obtain ⟨x, hx, hxa⟩ := List.mem_map.mp h
    have : x ∈ lineOf tr a := mem_lineOf.mpr ⟨hx, hxa⟩
    rw [ha] at this
    cases this
  have hle := (List.subperm_of_subset (List.nodup_cons.mpr ⟨hnot, hnodup⟩)
    (fun b _ => mem_allActuators b : a :: tr.actions.map ActionEntry.actuator ⊆ allActuators)).length_le
  have h32 : allActuators.length = 32 := rfl
  simp only [List.length_cons, List.length_map, h32] at hle
  simp only [Config.actionCapacity]
  omega

/-- R146: the room a new safe entry of an actuator without entries needs is there, or is made. -/
theorem makeRoom_length_lt (hordered : LinesOrdered tr) (ha : lineOf tr a = [])
    (h : tr.actions.length ≤ Config.actionCapacity) : (tr.makeRoom tb).actions.length < Config.actionCapacity := by
  unfold Traffic.makeRoom
  split
  · assumption
  · rename_i hfull
    split
    · rename_i e he
      rw [Traffic.answerEntry_actions,
        List.length_eraseP_of_mem (List.mem_of_find?_eq_some he) (List.find?_some he)]
      have := List.length_pos_of_mem (List.mem_of_find?_eq_some he)
      simp only [Config.actionCapacity] at *
      omega
    · rename_i hnone
      exact absurd (length_lt_of_all_issued (fun x hx => by simpa using List.find?_eq_none.mp hnone x hx) hordered ha) hfull

theorem issueSafe_length_le (o : Option Requester) (c : Carried) (hordered : LinesOrdered tr) (ha : lineOf tr a = [])
    (h : tr.actions.length ≤ Config.actionCapacity) :
    (tr.issueSafe v a o c).actions.length ≤ Config.actionCapacity := by
  have := makeRoom_length_lt (tb := v.tables) hordered ha h
  unfold Traffic.issueSafe
  simp only [issue_length, List.length_append, List.length_singleton]
  omega

end lines

end Sys2Proof.Machine

/-! What every step keeps behind the Action Queue and the Hold Pool (R21, R23, R133, R135, R136, R147). -/

namespace Sys2Proof.Machine

/-! ### The Point Table (R21, R23, R25) -/

section points

variable {tb tb' : Tables} {a : Actuator} {i j : Fin 128} {e f : PointEntry}

theorem mem_points_iff : e ∈ tb.points.toList ↔ ∃ i : Fin 128, tb.points.get i = e := by
  rw [Vector.mem_toList_iff, Vector.mem_iff_getElem]
  constructor
  · rintro ⟨n, hn, rfl⟩
    exact ⟨⟨n, hn⟩, rfl⟩
  · rintro ⟨i, rfl⟩
    exact ⟨i.val, i.isLt, rfl⟩

theorem points_get_set : (tb.points.set i e).get j = if j = i then e else tb.points.get j := by
  simp only [Vector.get_eq_getElem, Vector.getElem_set, Fin.ext_iff, eq_comm]

/-- R25: the entry is the valid one of the actuator's command role on its pass and object. -/
def PointEntry.commands (a : Actuator) (e : PointEntry) : Prop :=
  e.valid = true ∧ e.role = some a.commandRole ∧ e.pass = some a.pass ∧ e.object = some a.object

theorem hasCommandPoint_iff : hasCommandPoint tb a = true ↔ ∃ i : Fin 128, (tb.points.get i).commands a := by
  have hlevel : a.commandRole.isPassLevel = false := by cases a <;> rfl
  unfold hasCommandPoint commandPoint findRole
  rw [List.find?_isSome]
  constructor
  · rintro ⟨e, he, hp⟩
    obtain ⟨i, rfl⟩ := mem_points_iff.mp he
    exact ⟨i, by simpa [hlevel, PointEntry.commands] using hp⟩
  · rintro ⟨i, hi⟩
    exact ⟨_, mem_points_iff.mpr ⟨i, rfl⟩, by simpa [hlevel, PointEntry.commands] using hi⟩

theorem gate_object_chuteOf {p : PassId} {o : Fin 3} (h : o ≠ 2) : (Actuator.gate p (chuteOf o)).object = o := by
  revert h
  fin_cases o <;> simp [Actuator.object, chuteOf]

/-- R26: a lookup that gives an actuator found its command point. -/
theorem hasCommandPoint_of_commanded (h : PointsSound tb) (ha : Commanded tb a) : hasCommandPoint tb a = true := by
  obtain ⟨station, point, hit, hlookup, hact⟩ := ha
  obtain ⟨e, he, hhit⟩ := Option.bind_eq_some_iff.mp hlookup
  obtain ⟨i, rfl⟩ := mem_points_iff.mp (List.mem_of_find?_eq_some he)
  have hvalid : (tb.points.get i).valid = true := by
    unfold findPoint at he
    have hfound := List.find?_some he
    simp only [decide_eq_true_eq] at hfound
    exact hfound.1
  have hfits : objectFits (tb.points.get i) = true := by
    have := h.1 i hvalid
    simp only [isComplete, Bool.and_eq_true] at this
    exact this.2
  refine hasCommandPoint_iff.mpr ⟨i, ?_⟩
  generalize tb.points.get i = e at *
  unfold hitOf at hhit
  split at hhit
  · rename_i r p hr hp
    cases hhit
    unfold objectFits at hfits
    rw [hr] at hfits
    unfold Hit.actuator at hact
    simp only at hact
    cases ho : e.object with
    | none =>
      rw [ho] at hfits
      split at hact
      · simp [Role.isPassLevel] at hfits
      · simp [Role.isPassLevel] at hfits
      · simp [Role.isPassLevel] at hfits
      · cases hact
    | some o =>
      rw [ho] at hfits hact
      split at hact
      · cases hact
        refine ⟨hvalid, hr, hp, ?_⟩
        simp only [Role.isPassLevel, Role.isChute, Bool.false_eq_true, if_false, Bool.not_true, Bool.false_or,
          decide_eq_true_eq] at hfits
        rw [ho, Option.getD_some, gate_object_chuteOf hfits]
      · cases hact
        exact ⟨hvalid, hr, hp, ho⟩
      · cases hact
        exact ⟨hvalid, hr, hp, ho⟩
      · cases hact
  · cases hhit

theorem hasCommandPoint_of_taken (h : PointsSound tb) (ha : Taken tb a) : hasCommandPoint tb a = true :=
  ha.elim id (hasCommandPoint_of_commanded h)

theorem pointsClash_comm : pointsClash e f = pointsClash f e := by
  unfold pointsClash
  by_cases h : e.role = f.role ∧ e.pass = f.pass
  · simp [h.1, h.2, eq_comm]
  · have h' : ¬(f.role = e.role ∧ f.pass = e.pass) := fun hn => h ⟨hn.1.symm, hn.2.symm⟩
    simp [h, eq_comm]

theorem isDuplicate_eq_false_iff : isDuplicate tb i e = false ↔
    ∀ j, j ≠ i → (tb.points.get j).valid = true → pointsClash e (tb.points.get j) = false := by
  simp [isDuplicate, List.any_eq_false]

/-- R21, R23: an entry that is complete and no duplicate keeps the table sound. -/
theorem PointsSound.set (h : PointsSound tb) (he : e.valid = true → isComplete e = true ∧ isDuplicate tb i e = false) :
    PointsSound { tb with points := tb.points.set i e } := by
  refine ⟨fun j => ?_, fun j k hjk hj hk => ?_⟩
  · simp only [points_get_set]
    split
    · exact fun hv => (he hv).1
    · exact h.1 j
  · simp only [points_get_set] at hj hk ⊢
    split at hj <;> split at hk <;> rename_i h1 h2
    · exact absurd (h1.trans h2.symm) hjk
    · rw [if_pos h1, if_neg h2]
      exact isDuplicate_eq_false_iff.mp (he hj).2 k h2 hk
    · rw [if_neg h1, if_pos h2, pointsClash_comm]
      exact isDuplicate_eq_false_iff.mp (he hk).2 j h1 hj
    · rw [if_neg h1, if_neg h2]
      exact h.2 j k hjk hj hk

end points

/-! ### What stands behind a line and the pool -/

section sound

variable {tb tb' : Tables} {v : View} {live live' : PassId → Bool} {tr tr' : Traffic} {a b : Actuator} {p : PassId}
variable {l : List ActionEntry} {e : ActionEntry}

/-- R135, R136, R147: a line in order, at most 4 long, with a command point, its non-safe entries in a live pass. -/
def LineSound (tb : Tables) (live : PassId → Bool) (a : Actuator) (l : List ActionEntry) : Prop :=
  lineShaped a l ∧ l.length ≤ Config.lineCapacity ∧ (l ≠ [] → hasCommandPoint tb a = true)
    ∧ ∀ e ∈ l, e.direction = .nonSafe → live a.pass = true

/-- R126, R133: the held commands have a command point and belong to live passes. -/
def PoolBacked (tb : Tables) (live : PassId → Bool) (l : List HeldEntry) : Prop :=
  ∀ e ∈ l, hasCommandPoint tb e.actuator = true ∧ live e.actuator.pass = true

/-- All of it. -/
def TrafficSound (tb : Tables) (live : PassId → Bool) (tr : Traffic) : Prop :=
  (∀ a, LineSound tb live a (restLine tr a)) ∧ tr.actions.length ≤ Config.actionCapacity ∧ PoolBacked tb live tr.pool

theorem TrafficSound.ordered (h : TrafficSound tb live tr) : LinesOrdered tr := linesOrdered_iff.mpr fun a => (h.1 a).1

theorem TrafficSound.shaped (h : TrafficSound tb live tr) (a : Actuator) : lineShaped a (lineOf tr a) :=
  lineShaped_of_ordered h.ordered a

theorem lineShaped_issued_length (h : lineShaped a l) : (l.filter (ActionEntry.isIssuedFor a)).length ≤ 1 := by
  cases l with
  | nil => simp
  | cons e es =>
    obtain ⟨he, hes⟩ := h
    have hnil : es.filter (ActionEntry.isIssuedFor a) = [] := by
      refine List.filter_eq_nil_iff.mpr fun x hx => ?_
      simp [ActionEntry.isIssuedFor, (hes x hx).1]
    simp [he, hnil]

theorem LinesOrdered.issuedOnce (h : LinesOrdered tr) : IssuedOnce tr := by
  intro a
  have hline : tr.actions.filter (ActionEntry.isIssuedFor a) = (lineOf tr a).filter (ActionEntry.isIssuedFor a) := by
    unfold lineOf
    rw [List.filter_filter]
    refine List.filter_congr fun x _ => ?_
    cases hx : x.isIssuedFor a
    · rfl
    · simp [(ActionEntry.isIssuedFor_iff.mp hx).1]
  rw [hline]
  exact lineShaped_issued_length (lineShaped_of_ordered h a)

theorem mem_restLine : e ∈ restLine tr a ↔ ∃ x ∈ tr.actions, x.actuator = a ∧ x.withStanding true = e := by
  simp only [restLine, List.mem_map, mem_lineOf, and_assoc]

/-- The law of the Action Queue and the Hold Pool, line by line. -/
theorem commandsSound_iff (s : State) :
    CommandsSound s ↔
      PointsSound s.tables ∧ TrafficSound s.tables (fun p => (s.pass p).mode.isLive) s.traffic := by
  constructor
  · rintro ⟨hpoints, ⟨hentries, hpool⟩, ⟨hlen, hlines⟩, hordered⟩
    refine ⟨hpoints, fun a => ⟨linesOrdered_iff.mp hordered a, ?_, fun hne => ?_, fun e he hd => ?_⟩, hlen, hpool⟩
    · simpa [restLine] using (hlines a).1
    · obtain ⟨e, he⟩ := List.exists_mem_of_ne_nil _ hne
      obtain ⟨x, hx, rfl, -⟩ := mem_restLine.mp he
      exact (hentries x hx).1
    · obtain ⟨x, hx, rfl, rfl⟩ := mem_restLine.mp he
      exact (hentries x hx).2 (by simpa using hd)
  · rintro ⟨hpoints, hlines, hlen, hpool⟩
    have hordered : LinesOrdered s.traffic := linesOrdered_iff.mpr fun a => (hlines a).1
    refine ⟨hpoints, ⟨fun e he => ?_, hpool⟩, ⟨hlen, fun a => ⟨?_, hordered.issuedOnce a⟩⟩, hordered⟩
    · have hmem : e.withStanding true ∈ restLine s.traffic e.actuator := mem_restLine.mpr ⟨e, he, rfl, rfl⟩
      exact ⟨(hlines _).2.2.1 (List.ne_nil_of_mem hmem), fun hd => (hlines _).2.2.2 _ hmem (by simpa using hd)⟩
    · simpa [restLine] using (hlines a).2.1

theorem LineSound.nil : LineSound tb live a [] := ⟨trivial, Nat.zero_le _, fun h => absurd rfl h, fun _ h => nomatch h⟩

/-- One ISSUED entry alone is a sound line. -/
theorem LineSound.single (hcp : hasCommandPoint tb a = true) (hi : e.isIssuedFor a = true)
    (hl : e.direction = .nonSafe → live a.pass = true) : LineSound tb live a [e] :=
  ⟨⟨hi, fun _ h => nomatch h⟩, by simp [Config.lineCapacity], fun _ => hcp, fun x hx => by
    rw [List.mem_singleton.mp hx]; exact hl⟩

theorem LineSound.trim (h : LineSound tb live b (restLine tr b)) (ht : LineTrimmed b tr tr') :
    LineSound tb live b (restLine tr' b) := by
  obtain ⟨hshape, hlen, hcp, hlive⟩ := h
  refine ⟨lineShaped_of_trimmed hshape ht.1 ht.2, ht.1.length_le.trans hlen, fun hne => hcp fun hnil => ?_,
    fun e he => hlive e (ht.1.subset he)⟩
  exact hne (List.sublist_nil.mp (hnil ▸ ht.1))

theorem LineSound.of_orderedSafe (hcp : hasCommandPoint tb a = true) (h : orderedSafe tr a) :
    LineSound tb live a (restLine tr a) := by
  obtain ⟨e, he, hi, hd⟩ := orderedSafe_iff.mp h
  rw [he]
  exact .single hcp hi fun hn => by rw [hd] at hn; cases hn

/-- What changes one line alone. -/
theorem TrafficSound.of_line (h : TrafficSound tb live tr) (hne : ∀ b, b ≠ a → LineTrimmed b tr tr')
    (ha : LineSound tb live a (restLine tr' a)) (hlen : tr'.actions.length ≤ Config.actionCapacity)
    (hpool : PoolBacked tb live tr'.pool) : TrafficSound tb live tr' := by
  refine ⟨fun b => ?_, hlen, hpool⟩
  by_cases hb : b = a
  · exact hb ▸ ha
  · exact (h.1 b).trim (hne b hb)

/-- What touches no entry and no held command. -/
theorem TrafficSound.of_same (h : TrafficSound tb live tr) (ha : SameEntries tr'.actions tr.actions)
    (hp : tr'.pool = tr.pool) : TrafficSound tb live tr' :=
  ⟨fun b => restLine_of_same ha ▸ h.1 b, ha.length_eq.trans_le h.2.1, hp ▸ h.2.2⟩

theorem SameEntries.of_eq {l m : List ActionEntry} (h : l = m) : SameEntries l m := ⟨.gate 0 0, .inl h⟩

theorem TrafficSound.of_pool {l : List HeldEntry} (h : TrafficSound tb live tr) (hl : PoolBacked tb live l) :
    TrafficSound tb live { tr with pool := l } := ⟨h.1, h.2.1, hl⟩

theorem PoolBacked.filter {l : List HeldEntry} {f : HeldEntry → Bool} (h : PoolBacked tb live l) :
    PoolBacked tb live (l.filter f) := fun e he => h e (List.mem_filter.mp he).1

theorem TrafficSound.answer {r : Requester} {ans : Answer} {reason : Reason} {n : Nat} (h : TrafficSound tb live tr) :
    TrafficSound tb live (tr.answer tb' r ans reason n) := h.of_same (.of_eq rfl) rfl

/-! ### Through each act -/

theorem enlist_sound {n : Nat} (r : Requester) (c : Carried) (h : TrafficSound v.tables live tr)
    (hcp : hasCommandPoint v.tables a = true) (hl : live a.pass = true) :
    TrafficSound v.tables live (tr.enlist v a n r c).1 := by
  refine h.of_line (fun b hb => .of_eq (enlist_line_of_ne n r c hb)) ?_ (enlist_length_le r c h.2.1) (by simpa using h.2.2)
  obtain e | ⟨hshort, ⟨hne, x, e, hw, hd⟩ | ⟨x, e, hi, -⟩⟩ := enlist_line (tr := tr) n r c hcp <;> rw [e]
  · exact h.1 a
  · obtain ⟨hshape, -, -, -⟩ := h.1 a
    refine ⟨?_, by simp only [List.length_append, List.length_singleton]; omega, fun _ => hcp, fun _ _ _ => hl⟩
    cases hline : restLine tr a with
    | nil => exact absurd hline hne
    | cons y ys =>
      rw [hline] at hshape
      refine ⟨hshape.1, fun z hz => ?_⟩
      rcases List.mem_append.mp hz with hz | hz
      · exact hshape.2 z hz
      · rw [List.mem_singleton.mp hz]; exact ⟨hw, hd⟩
  · exact .single hcp hi fun _ => hl

theorem takeSafe_length_le (o : Option Requester) (c : Carried) (h : TrafficSound tb live tr) :
    (tr.takeSafe v a o c).actions.length ≤ Config.actionCapacity := by
  have hlen : (tr.cancelWaiting v.tables a .safePreempt).actions.length ≤ Config.actionCapacity := by
    rw [cancelWaiting_actions]
    exact (List.length_filter_le _ _).trans h.2.1
  have hordered : LinesOrdered (tr.cancelWaiting v.tables a .safePreempt) := by
    refine linesOrdered_iff.mpr fun b => ?_
    by_cases hb : b = a
    · subst hb
      rw [restLine, lineShaped_map]
      obtain ⟨hl, -, -⟩ | ⟨e, rest, -, hl, he, -⟩ :=
        cancelWaiting_line (tb := v.tables) .safePreempt (h.shaped b) <;> rw [hl]
      · trivial
      · exact ⟨he, fun _ hx => nomatch hx⟩
    · rw [restLine, lineOf_cancelWaiting_of_ne _ hb]
      exact (h.1 b).1
  unfold Traffic.takeSafe
  simp only
  obtain ⟨hl, -, hi⟩ | ⟨e, rest, -, hl, he, hi⟩ :=
    cancelWaiting_line (tb := v.tables) .safePreempt (h.shaped a) <;> rw [hi]
  · exact issueSafe_length_le _ _ hordered hl hlen
  · simp only
    split
    · rw [attach_length]; exact hlen
    · refine issueSafe_length_le _ _ ?_ ?_ ?_
      · refine linesOrdered_iff.mpr fun b => ?_
        by_cases hb : b = a
        · subst hb
          rw [restLine, lineOf_removeIssued_self, lineOf, Traffic.answerEntry_actions, ← lineOf, hl,
            List.eraseP_cons_of_pos he]
          trivial
        · rw [restLine, lineOf_removeIssued_of_ne hb, lineOf, Traffic.answerEntry_actions]
          exact linesOrdered_iff.mp hordered b
      · rw [lineOf_removeIssued_self, lineOf, Traffic.answerEntry_actions, ← lineOf, hl, List.eraseP_cons_of_pos he]
      · rw [Traffic.removeIssued_actions, Traffic.answerEntry_actions]
        exact List.length_eraseP_le.trans hlen

theorem takeSafe_sound (o : Option Requester) (c : Carried) (h : TrafficSound tb live tr) (ht : v.tables = tb)
    (hcp : hasCommandPoint tb a = true) : TrafficSound tb live (tr.takeSafe v a o c) := by
  subst ht
  exact h.of_line (fun b hb => takeSafe_trims o c hb)
    (.of_orderedSafe hcp (takeSafe_orderedSafe o c hcp (h.shaped a))) (takeSafe_length_le o c h) (by simpa using h.2.2)

theorem originate_sound (h : TrafficSound tb live tr) (ht : v.tables = tb) :
    TrafficSound tb live (tr.originate v a) := by
  unfold Traffic.originate
  split
  · exact takeSafe_sound _ _ h ht (ht ▸ ‹_›)
  · exact h

theorem retire_sound (h : TrafficSound v.tables live tr) (he : issuedEntry tr a = some e)
    (hl : ∀ p, (v.passes.get p).mode.isLive = true → live p = true) : TrafficSound v.tables live (tr.retire v e) := by
  obtain rfl := issuedEntry_actuator he
  have hne : restLine tr e.actuator ≠ [] := by
    rw [issuedEntry_eq_find?] at he
    rw [Ne, ← lineOf_eq_nil_iff]
    intro hnil
    rw [hnil] at he
    cases he
  have hcp := (h.1 e.actuator).2.2.1 hne
  have hlen : (tr.retire v e).actions.length ≤ Config.actionCapacity := by
    unfold Traffic.retire Traffic.promote
    refine (promoteLine_length_le _ _).trans (le_trans ?_ h.2.1)
    exact List.length_eraseP_le
  refine h.of_line (fun b hb => .of_eq (retire_line_of_ne hb)) ?_ hlen (by simpa using h.2.2)
  obtain hnil | ⟨x, rest, rest', hx, hi, hline, hsub, hrest, hlive⟩ := retire_line hcp he (h.shaped _)
  · rw [hnil]; exact .nil
  · obtain ⟨-, hshort, -, hall⟩ := h.1 e.actuator
    have hmap : rest.map (ActionEntry.withStanding true) = rest :=
      (List.map_congr_left fun y hy => ActionEntry.withStanding_of_waiting (hrest y hy).1).trans (List.map_id' _)
    rw [hx, hmap]
    refine ⟨⟨hi, hrest⟩, ?_, fun _ => hcp, fun y hy hd => ?_⟩
    · have := hsub.length_le
      simp only [restLine, hline, List.length_map, List.length_cons] at hshort ⊢
      omega
    · rcases List.mem_cons.mp hy with rfl | hy
      · exact hl _ (hlive hd)
      · refine hall y ?_ hd
        rw [restLine, hline]
        refine List.mem_cons_of_mem _ (List.mem_map.mpr ⟨y, hsub.subset hy, ?_⟩)
        exact ActionEntry.withStanding_of_waiting (hrest y hy).1

theorem dropFailed_sound (h : TrafficSound tb live tr) : TrafficSound tb live (tr.dropFailed tb' a) := by
  refine h.of_line (fun b hb => .of_eq (dropFailed_line_of_ne hb)) ?_ ?_ (by simpa using h.2.2)
  · rw [lineOf_eq_nil_iff.mp (dropFailed_line (h.shaped a))]
    exact .nil
  · unfold Traffic.dropFailed
    rw [cancelWaiting_actions, Traffic.removeIssued_actions]
    exact (List.length_filter_le _ _).trans (List.length_eraseP_le.trans h.2.1)

theorem rejudge_sound (x : HeldEntry) (h : TrafficSound v.tables live tr) (hcp : hasCommandPoint v.tables x.actuator = true)
    (hl : ∀ p, (v.passes.get p).mode.isLive = true → live p = true) : TrafficSound v.tables live (tr.rejudge v x) := by
  have hunpark : TrafficSound v.tables live (tr.unpark x.actuator) := h.of_pool h.2.2.filter
  have released : Allowed (judge v tr x.actuator (requestedValue x.value)) →
      TrafficSound v.tables live (tr.release v x (judge v tr x.actuator (requestedValue x.value))) := by
    intro ok
    have h1 := enlist_sound (n := (judge v tr x.actuator (requestedValue x.value)).value) x.requester x.carried hunpark hcp
      (hl _ (placeable_of_allowed ok).1)
    unfold Traffic.release
    split <;> rename_i he <;> rw [he] at h1 <;> exact h1.answer
  unfold Traffic.rejudge
  simp only
  split
  · exact released (.inl ‹_›)
  · exact released (.inr ‹_›)
  · exact hunpark.answer
  · refine h.of_pool fun y hy => ?_
    obtain ⟨z, hz, rfl⟩ := List.mem_map.mp hy
    split
    · exact h.2.2 z hz
    · exact h.2.2 z hz

theorem foldl_rejudge_sound (hl : ∀ p, (v.passes.get p).mode.isLive = true → live p = true) (l : List HeldEntry) :
    (∀ x ∈ l, hasCommandPoint v.tables x.actuator = true) → ∀ tr, TrafficSound v.tables live tr →
      TrafficSound v.tables live (l.foldl (Traffic.rejudge v) tr) := by
  induction l with
  | nil => exact fun _ _ h => h
  | cons x xs ih =>
    intro hcp tr h
    exact ih (fun y hy => hcp y (List.mem_cons_of_mem _ hy)) _ (rejudge_sound x h (hcp x List.mem_cons_self) hl)

theorem Act.trafficSound (h : Act v tr tr') (hp : PointsSound v.tables)
    (hl : ∀ p, (v.passes.get p).mode.isLive = true → live p = true) (h0 : TrafficSound v.tables live tr) :
    TrafficSound v.tables live tr' := by
  cases h with
  | placeControl | raise | freeControl | clearOverruns => exact h0.of_same (.of_eq rfl) rfl
  | placeField q => exact h0.of_same (Traffic.placeField_actions _ _ _) (by simp)
  | freeField => exact h0.of_same (Traffic.fieldArbitrate_actions _) (by simp)
  | enlisting a n r c ha ok =>
    exact enlist_sound r c h0 (hasCommandPoint_of_commanded hp ha) (hl _ (placeable_of_allowed ok).1)
  | park a e ha he hj =>
    refine h0.of_pool fun x hx => ?_
    rcases List.mem_append.mp hx with hx | hx
    · exact h0.2.2 x hx
    · rw [List.mem_singleton.mp hx, he]
      exact ⟨hasCommandPoint_of_commanded hp ha, hl _ (judge_live (by rw [hj]; exact fun hn => nomatch hn))⟩
  | unpark a => exact h0.of_pool h0.2.2.filter
  | unparkPass p => exact h0.of_pool h0.2.2.filter
  | round p =>
    exact foldl_rejudge_sound hl _ (fun x hx => (h0.2.2 x (List.mem_filter.mp hx).1).1) _ h0
  | takeSafe a o c ha => exact takeSafe_sound o c h0 rfl (hasCommandPoint_of_taken hp ha)
  | retire a e he => exact retire_sound h0 he hl
  | dropFailed a => exact dropFailed_sound h0

/-! ### The safe state of a pass (R147, R155) -/

theorem orderedSafe_of_trimmed (h : orderedSafe tr b) (ht : LineTrimmed b tr tr') : orderedSafe tr' b := by
  obtain ⟨e, he, hi, hd⟩ := orderedSafe_iff.mp h
  have hshape : lineShaped b (restLine tr' b) :=
    lineShaped_of_trimmed (he ▸ ⟨hi, fun _ hx => nomatch hx⟩) ht.1 ht.2
  refine orderedSafe_iff.mpr ⟨e, ?_, hi, hd⟩
  have hissued : (restLine tr' b).filter ActionEntry.isIssued = [e] := by
    rw [ht.2, he]
    simp [ActionEntry.isIssued_of_isIssuedFor hi]
  have hsub := ht.1
  rw [he] at hsub
  rcases List.sublist_singleton.mp hsub with hnil | hone
  · rw [hnil] at hissued; cases hissued
  · exact hone

theorem originate_ordered (h : LinesOrdered tr) : LinesOrdered (tr.originate v a) := by
  refine linesOrdered_iff.mpr fun b => ?_
  by_cases hb : b = a
  · subst hb
    by_cases hcp : hasCommandPoint v.tables b = true
    · obtain ⟨e, he, hi, -⟩ := orderedSafe_iff.mp (originate_orderedSafe hcp (lineShaped_of_ordered h b))
      rw [he]
      exact ⟨hi, fun _ hx => nomatch hx⟩
    · unfold Traffic.originate
      rw [if_neg hcp]
      exact linesOrdered_iff.mp h b
  · have ht : LineTrimmed b tr (tr.originate v a) := originate_trims hb
    exact lineShaped_of_trimmed (linesOrdered_iff.mp h b) ht.1 ht.2

/-- Safe commands originated one after another leave each of their actuators with a command point ordered safe. -/
theorem foldl_originate_orderedSafe (hcp : hasCommandPoint v.tables a = true) (l : List Actuator) :
    ∀ tr, LinesOrdered tr → (a ∈ l ∨ orderedSafe tr a) → orderedSafe (l.foldl (fun t b => t.originate v b) tr) a := by
  induction l with
  | nil => exact fun tr _ h => h.elim (fun h => nomatch h) id
  | cons b bs ih =>
    intro tr hordered h
    refine ih _ (originate_ordered hordered) ?_
    by_cases hb : a = b
    · subst hb
      exact .inr (originate_orderedSafe hcp (lineShaped_of_ordered hordered a))
    · exact h.imp (fun h => (List.mem_cons.mp h).resolve_left hb) fun h => orderedSafe_of_trimmed h (originate_trims hb)

theorem foldl_originate_trims (l : List Actuator) (h : ∀ b ∈ l, a ≠ b) :
    ∀ tr, LineTrimmed a tr (l.foldl (fun t b => t.originate v b) tr) := by
  induction l with
  | nil => exact fun _ => .of_eq rfl
  | cons b bs ih =>
    exact fun tr => (originate_trims (h b List.mem_cons_self)).trans
      (ih (fun c hc => h c (List.mem_cons_of_mem _ hc)) _)

theorem foldl_originate_sound (ht : v.tables = tb) (l : List Actuator) : ∀ tr, TrafficSound tb live tr →
    TrafficSound tb live (l.foldl (fun t b => t.originate v b) tr) := by
  induction l with
  | nil => exact fun _ h => h
  | cons b bs ih => exact fun tr h => ih _ (originate_sound h ht)

theorem foldl_originate_pool (l : List Actuator) : ∀ tr : Traffic,
    (l.foldl (fun t b => t.originate v b) tr).pool = tr.pool := by
  induction l with
  | nil => exact fun _ => rfl
  | cons b bs ih => exact fun tr => (ih _).trans originate_pool

theorem mem_safeStateOrder_iff : a ∈ safeStateOrder p ↔ a.pass = p := by
  refine ⟨mem_safeStateOrder, ?_⟩
  rintro rfl
  cases a with
  | gate p c => fin_cases c <;> simp [safeStateOrder, Actuator.pass]
  | signal p t => fin_cases t <;> simp [safeStateOrder, Actuator.pass]
  | breaker p t => fin_cases t <;> simp [safeStateOrder, Actuator.pass]

/-! ### Change of what is read beside the traffic -/

/-- The lines and the pool are read with other tables and pass states. -/
theorem TrafficSound.reread (h : TrafficSound tb live tr)
    (hcp : ∀ a, lineOf tr a ≠ [] ∨ (∃ e ∈ tr.pool, e.actuator = a) → hasCommandPoint tb a = true →
      hasCommandPoint tb' a = true)
    (hl : ∀ a, (∃ e ∈ lineOf tr a, e.direction = .nonSafe) ∨ (∃ e ∈ tr.pool, e.actuator = a) → live a.pass = true →
      live' a.pass = true) : TrafficSound tb' live' tr := by
  obtain ⟨hlines, hlen, hpool⟩ := h
  refine ⟨fun a => ?_, hlen, fun e he => ?_⟩
  · obtain ⟨hshape, hshort, hpoint, hlive⟩ := hlines a
    refine ⟨hshape, hshort, fun hne => hcp a (.inl ?_) (hpoint hne), fun e he hd => hl a (.inl ?_) (hlive e he hd)⟩
    · rwa [Ne, lineOf_eq_nil_iff]
    · obtain ⟨x, hx, hxa, rfl⟩ := mem_restLine.mp he
      exact ⟨x, mem_lineOf.mpr ⟨hx, hxa⟩, by simpa using hd⟩
  · obtain ⟨h1, h2⟩ := hpool e he
    exact ⟨hcp _ (.inr ⟨e, he, rfl⟩) h1, hl _ (.inr ⟨e, he, rfl⟩) h2⟩

end sound

/-! ### Through each move -/

section moves

variable {s u : State} {p : PassId} {x y : Pass} {pr : PassParams}

/-- An edit leaves a live pass live. -/
theorem PassEdit.live (h : PassEdit pr x y) (hx : x.mode.isLive = true) : y.mode.isLive = true := by
  cases h with
  | acknowledged => rfl
  | alert => rfl
  | reset =>
    simp only
    split
    · rename_i hi; rw [hi] at hx; cases hx
    · rfl
  | _ => exact hx

theorem passBusy_eq_false_iff {tr : Traffic} : passBusy tr p = false ↔ ∀ e ∈ tr.actions, e.actuator.pass ≠ p := by
  simp [passBusy, List.any_eq_false]

/-- The Point Table edits keep it sound, and keep the command point of each actuator whose pass is busy. -/
theorem PointEdit.pointsSound {i : Fin 128} {e : PointEntry} (h : PointEdit s i e) (hs : PointsSound s.tables) :
    PointsSound (s.setPoint i e).tables := by
  have hwrite_valid : ∀ (e : PointEntry) (n : Nat) (sel : PointSel), (e.write n sel).valid = e.valid := by
    intro e n sel; cases sel <;> rfl
  refine hs.set ?_
  cases h with
  | hold n sel hv =>
    intro hv'
    rw [hwrite_valid, hv] at hv'
    cases hv'
  | validate _ hc _ hd =>
    refine fun _ => ⟨hc, ?_⟩
    rw [isDuplicate_eq_false_iff] at hd ⊢
    exact hd
  | blank => exact fun hv => nomatch hv
  | change n sel hv hsel hin hfits _ _ hdup =>
    intro _
    have hc := hs.1 i hv
    simp only [isComplete, Bool.and_eq_true] at hc ⊢
    obtain ⟨⟨⟨⟨h1, h2⟩, h3⟩, h4⟩, -⟩ := hc
    have hrouted : sel.isRouting = false → isDuplicate s.tables i ((s.tables.points.get i).write n sel) = false := by
      intro hr
      rw [isDuplicate_eq_false_iff]
      intro j hj hjv
      have hclash := hs.2 i j (Ne.symm hj) hv hjv
      cases sel with
      | station | point | role | pass | object => cases hr
      | valid | mode | scaleNum | scaleDen | response | tolerance => exact hclash
    refine ⟨⟨⟨⟨⟨?_, ?_⟩, ?_⟩, ?_⟩, hfits⟩, ?_⟩
    · cases sel <;> first | exact h1 | rfl
    · cases sel <;> first | exact h2 | rfl
    · cases sel with
      | role =>
        obtain ⟨h5, h6⟩ : (1 : Int) ≤ n ∧ (n : Int) ≤ 14 := of_decide_eq_true hin
        have hn : 1 ≤ n ∧ n ≤ 14 := by omega
        obtain ⟨hn1, hn2⟩ := hn
        interval_cases n <;> rfl
      | _ => exact h3
    · cases sel with
      | pass =>
        obtain ⟨-, h6⟩ : (0 : Int) ≤ n ∧ (n : Int) ≤ 3 := of_decide_eq_true hin
        have hn : n < 4 := by omega
        simp [PointEntry.write, indexBelow, hn]
      | _ => exact h4
    · cases hr : sel.isRouting
      · exact hrouted hr
      · exact hdup hr

/-- R24: a Point Table edit keeps the command point of every actuator of a pass with entries. -/
theorem PointEdit.hasCommandPoint {i : Fin 128} {e : PointEntry} {a : Actuator} (h : PointEdit s i e)
    (hb : passBusy s.traffic a.pass = true) (ha : hasCommandPoint s.tables a = true) :
    Machine.hasCommandPoint (s.setPoint i e).tables a = true := by
  obtain ⟨j, hj⟩ := hasCommandPoint_iff.mp ha
  refine hasCommandPoint_iff.mpr ⟨j, ?_⟩
  simp only [State.setPoint_tables, points_get_set]
  split
  · rename_i hji
    subst hji
    have hbusy : pointBusy s (s.tables.points.get j) = true := by
      unfold pointBusy
      rw [hj.2.2.1]
      exact hb
    cases h with
    | hold n sel hv => rw [hj.1] at hv; cases hv
    | validate hv => rw [hj.1] at hv; cases hv
    | blank hn => rw [hn hj.1] at hbusy; cases hbusy
    | change n sel _ _ _ _ hn => rw [hn] at hbusy; cases hbusy
  · exact hj

theorem noneInService_iff : noneInService s = true ↔ ∀ p, (s.pass p).mode.inService = false := by
  unfold noneInService
  rw [List.all_eq_true]
  refine ⟨fun h p => by simpa using h p (by fin_cases p <;> simp [allPasses]), fun h p _ => by simp [h p]⟩

theorem not_live_of_not_inService {m : PassState} (h : m.inService = false) : m.isLive = false := by
  cases m <;> first | rfl | cases h

theorem mem_lineOf_passBusy {tr : Traffic} {a : Actuator} (h : lineOf tr a ≠ []) : passBusy tr a.pass = true := by
  obtain ⟨e, he⟩ := List.exists_mem_of_ne_nil _ h
  obtain ⟨hm, rfl⟩ := mem_lineOf.mp he
  by_contra hn
  exact passBusy_eq_false_iff.mp (by simpa using hn) e hm rfl

/-- Tables with the same Point Table give the same command points. -/
theorem hasCommandPoint_of_points {tb tb' : Tables} {a : Actuator} (h : tb'.points = tb.points) :
    hasCommandPoint tb' a = hasCommandPoint tb a := by
  unfold hasCommandPoint commandPoint findRole
  rw [h]

theorem PointsSound.of_points {tb tb' : Tables} (h : PointsSound tb) (he : tb'.points = tb.points) : PointsSound tb' := by
  unfold PointsSound
  rw [he]
  exact h

theorem write_plain_points {tb : Tables} {n : Nat} {f : TableField}
    (h : f.isParticular = false ∨ (∃ p t, f = .grizzly p t) ∨ f = .device .silenceTime) :
    (tb.write n f).points = tb.points := by
  cases f with
  | point i sel =>
    rcases h with h | ⟨p, t, h⟩ | h
    · cases h
    · cases h
    · cases h
  | device sel => cases sel <;> rfl
  | _ => rfl

theorem lineShaped_tick {a : Actuator} {l : List ActionEntry} (h : lineShaped a l) :
    lineShaped a (l.map ActionEntry.tick) := by
  cases l with
  | nil => trivial
  | cons e es =>
    obtain ⟨he, hes⟩ := h
    refine ⟨?_, fun y hy => ?_⟩
    · obtain ⟨ha, d, sent, tel, hs⟩ := ActionEntry.isIssuedFor_iff.mp he
      refine ActionEntry.isIssuedFor_iff.mpr ⟨?_, tickDown d, sent, tel, ?_⟩ <;> simp [ActionEntry.tick, hs, ha]
    · obtain ⟨z, hz, rfl⟩ := List.mem_map.mp hy
      obtain ⟨hw, hd⟩ := hes z hz
      simp [ActionEntry.tick, hw, hd]

@[simp] theorem ActionEntry.tick_actuator (e : ActionEntry) : e.tick.actuator = e.actuator := by
  unfold ActionEntry.tick
  split <;> rfl

@[simp] theorem ActionEntry.tick_direction (e : ActionEntry) : e.tick.direction = e.direction := by
  unfold ActionEntry.tick
  split <;> rfl

theorem ActionEntry.tick_withStanding (e : ActionEntry) (b : Bool) :
    e.tick.withStanding b = (e.withStanding b).tick := by
  unfold ActionEntry.tick ActionEntry.withStanding
  cases h : e.state <;> simp [h]

theorem restLine_tick {tr : Traffic} {a : Actuator} :
    restLine { tr with pool := tr.pool.map HeldEntry.tick, actions := tr.actions.map ActionEntry.tick } a
      = (restLine tr a).map ActionEntry.tick := by
  unfold restLine lineOf
  simp only [List.filter_map, List.map_map, Function.comp_def, ActionEntry.tick_actuator, ActionEntry.tick_withStanding]

theorem TrafficSound.tick {tb : Tables} {live : PassId → Bool} {tr : Traffic} (h : TrafficSound tb live tr) :
    TrafficSound tb live { tr with pool := tr.pool.map HeldEntry.tick, actions := tr.actions.map ActionEntry.tick } := by
  obtain ⟨hlines, hlen, hpool⟩ := h
  refine ⟨fun a => ?_, by simpa using hlen, fun e he => ?_⟩
  · obtain ⟨hshape, hshort, hcp, hlive⟩ := hlines a
    rw [restLine_tick]
    refine ⟨lineShaped_tick hshape, by simpa using hshort, fun hne => hcp (by simpa using hne), fun e he hd => ?_⟩
    obtain ⟨x, hx, rfl⟩ := List.mem_map.mp he
    exact hlive x hx (by simpa using hd)
  · obtain ⟨x, hx, rfl⟩ := List.mem_map.mp he
    exact hpool x hx

theorem TrafficSound.cleared {tb : Tables} {live : PassId → Bool} : TrafficSound tb live clearedTraffic :=
  ⟨fun _ => .nil, Nat.zero_le _, fun _ h => nomatch h⟩

/-- R155: the tripped pass has safe entries alone and no held command. -/
theorem tripped_sound {c : Cause} {tel : Option Interrupted}
    (h : TrafficSound s.tables (fun q => (s.pass q).mode.isLive) s.traffic) :
    TrafficSound s.tables (fun q => ((s.tripped p c tel).pass q).mode.isLive) (s.tripped p c tel).traffic := by
  rw [tripped_traffic]
  generalize hv : (s.setPass p
    { s.pass p with
      mode := .tripped
      alarm := raisedAlarm .trip c (secondaryAtTrip (s.pass p)) s.time (s.pass p).est tel }).view = v
  have ht : v.tables = s.tables := by rw [← hv]; rfl
  have h1 := foldl_originate_sound (v := v) ht (safeStateOrder p) _ h
  have hsafe : ∀ a, a.pass = p → hasCommandPoint s.tables a = true →
      orderedSafe ((safeStateOrder p).foldl (fun t b => t.originate v b) s.traffic) a := fun a ha hcp =>
    foldl_originate_orderedSafe (ht ▸ hcp) _ _ h.ordered (.inl (mem_safeStateOrder_iff.mpr ha))
  generalize (safeStateOrder p).foldl (fun t b => t.originate v b) s.traffic = safed at h1 hsafe
  have h2 : TrafficSound s.tables (fun q => (s.pass q).mode.isLive) (safed.purge s.tables p) :=
    (h1.of_pool (h1.2.2.filter (f := fun e => !e.isOf p))).of_same (.of_eq (purge_actions _ _ _)) (purge_pool _ _ _)
  refine h2.reread (fun _ _ h => h) fun a hw hl => ?_
  have hne : a.pass ≠ p := by
    intro hp
    rcases hw with ⟨e, he, hd⟩ | ⟨e, he, rfl⟩
    · have he' : e ∈ lineOf safed a := by
        obtain ⟨hm, ha⟩ := mem_lineOf.mp he
        rw [purge_actions] at hm
        exact mem_lineOf.mpr ⟨hm, ha⟩
      have hcp : hasCommandPoint s.tables a = true :=
        (h1.1 a).2.2.1 (List.ne_nil_of_mem (List.mem_map_of_mem he'))
      obtain ⟨x, hx, -, hxd⟩ := hsafe a hp hcp
      rw [hx] at he'
      rw [List.mem_singleton.mp he', hxd] at hd
      cases hd
    · rw [purge_pool] at he
      simp [HeldEntry.isOf, hp] at he
  simp only [tripped_pass, if_neg hne]
  exact hl

/-- R158: a pass at rest whose entries all have command points has no entry. -/
theorem no_entries_of_atRest {live : PassId → Bool} (h : TrafficSound s.tables live s.traffic)
    (hr : atRest s.view s.traffic p = true) : ∀ a, a.pass = p → lineOf s.traffic a = [] := by
  intro a ha
  by_contra hne
  have hcp := (h.1 a).2.2.1 (by rwa [Ne, ← lineOf_eq_nil_iff])
  have hrest := List.all_eq_true.mp hr a (mem_safeStateOrder_iff.mpr ha)
  obtain ⟨e, he⟩ := List.exists_mem_of_ne_nil _ hne
  obtain ⟨hm, rfl⟩ := mem_lineOf.mp he
  have hentry : hasEntry s.traffic e.actuator = true := List.any_eq_true.mpr ⟨e, hm, by simp⟩
  simp [hcp, hentry] at hrest

theorem Move.commandsSound (h : Move s u) (hs : CommandsSound s) : CommandsSound u := by
  rw [commandsSound_iff] at hs ⊢
  obtain ⟨hp, ht⟩ := hs
  have keep : ∀ {t : State}, t.tables.points = s.tables.points → t.traffic.actions = s.traffic.actions →
      t.traffic.pool = s.traffic.pool →
      (∀ a, (∃ e ∈ lineOf s.traffic a, e.direction = .nonSafe) ∨ (∃ e ∈ s.traffic.pool, e.actuator = a) →
        (s.pass a.pass).mode.isLive = true → (t.pass a.pass).mode.isLive = true) →
      PointsSound t.tables ∧ TrafficSound t.tables (fun p => (t.pass p).mode.isLive) t.traffic := by
    intro t h1 h2 h3 h4
    refine ⟨hp.of_points h1, TrafficSound.of_same ?_ (.of_eq h2) h3⟩
    exact ht.reread (fun a _ hcp => (hasCommandPoint_of_points h1).trans hcp) h4
  cases h with
  | act tr ha => exact ⟨hp, ha.trafficSound hp (fun _ h => h) ht⟩
  | edit p x hx =>
    refine keep rfl rfl rfl fun a _ hl => ?_
    rw [State.setPass_pass]
    split
    · rename_i hq
      exact hx.live (hq ▸ hl)
    · exact hl
  | registers => exact keep rfl rfl rfl fun _ _ h => h
  | restarted => exact ⟨hp, .cleared⟩
  | tripped p c tel => exact ⟨hp, tripped_sound ht⟩
  | isolated p hm hr hpool =>
    refine keep rfl rfl rfl fun a hw hl => ?_
    rw [isolated_pass]
    split
    · rename_i hq
      rcases hw with ⟨e, he, -⟩ | ⟨e, he, rfl⟩
      · rw [no_entries_of_atRest ht hr a hq] at he
        cases he
      · exact absurd hq (hpool e he)
    · exact hl
  | restored p hm =>
    refine keep rfl rfl rfl fun a _ hl => ?_
    rw [restored_pass]
    split
    · rfl
    · exact hl
  | configured p hm =>
    refine keep rfl rfl rfl fun a _ hl => ?_
    rw [configured_pass]
    split
    · rename_i hq
      rw [hq, hm] at hl
      cases hl
    · exact hl
  | unconfigured p hm =>
    refine keep rfl rfl rfl fun a _ hl => ?_
    rw [unconfigured_pass]
    split
    · rename_i hq
      rw [hq, hm] at hl
      cases hl
    · exact hl
  | lengthened p n hm =>
    have htraffic : (s.lengthened p n).traffic = s.traffic := by
      unfold State.lengthened
      simp only
      split <;> rfl
    refine keep ?_ (by rw [htraffic]) (by rw [htraffic]) fun a _ hl => ?_
    · rw [lengthened_tables]
      rfl
    · rw [lengthened_pass]
      split
      · rename_i hq
        simpa [Pass.flattened, hq.1] using hl
      · exact hl
  | store f n _ _ hf => exact keep (write_plain_points hf) rfl rfl fun _ _ h => h
  | point i e hnone he =>
    have hdead : ∀ q, (s.pass q).mode.isLive = false := fun q => not_live_of_not_inService (noneInService_iff.mp hnone q)
    refine ⟨he.pointsSound hp, ht.reread (fun a hw hcp => ?_) fun _ _ h => h⟩
    rcases hw with hne | ⟨x, hx, rfl⟩
    · exact he.hasCommandPoint (mem_lineOf_passBusy hne) hcp
    · exact absurd (ht.2.2 x hx).2 (by simp [hdead])
  | elapse =>
    refine ⟨hp, ht.tick.reread (fun _ _ h => h) fun a _ hl => ?_⟩
    rw [elapse_pass]
    exact hl

/-- With it, the action telegrams that stand queued (R10, R138). -/
theorem Move.telegramsMatched (h : Move s u) (hs : CommandsSound s) (hm : ActionTelegramsMatched s.traffic) :
    ActionTelegramsMatched u.traffic := by
  have honce : IssuedOnce s.traffic := hs.2.2.2.issuedOnce
  cases h with
  | act tr ha => exact (ha.prims fun _ => honce).matched honce hm
  | restarted => exact ⟨fun _ => Nat.zero_le _, fun _ h => nomatch h⟩
  | tripped p c tel =>
    have h1 := Prims.foldl_once (v := (s.setPass p
      { s.pass p with
        mode := .tripped
        alarm := raisedAlarm .trip c (secondaryAtTrip (s.pass p)) s.time (s.pass p).est tel }).view)
      (fun (a : Actuator) t ht => originate_prims (a := a) t ht) (safeStateOrder p) s.traffic honce
    exact Prims.matched (h1.trans (purge_prims p _)) honce hm
  | lengthened p n =>
    unfold State.lengthened
    simp only
    split <;> exact hm
  | elapse =>
    refine ⟨hm.1, fun q hq a d hc => ?_⟩
    obtain ⟨e, he, ha, hd, n, hst⟩ := hm.2 q hq a d hc
    exact ⟨e.tick, List.mem_map_of_mem he, by simpa using ha, by simpa using hd, tickDown n, by simp [ActionEntry.tick, hst]⟩
  | _ => exact hm

end moves

/-- Settles O59: line by line through the acts of the traffic, and by the elementary acts for the queued telegrams. -/
theorem stepKeepsCommands : Obligations.StepKeepsCommands := by
  refine ⟨fun s t h hs => step_keeps (fun _ _ => Move.commandsSound) h hs, fun s t h hm hs => ?_⟩
  exact (step_keeps (I := fun s => CommandsSound s ∧ ActionTelegramsMatched s.traffic)
    (fun _ _ hmove hi => ⟨hmove.commandsSound hi.1, hmove.telegramsMatched hi.1 hi.2⟩) ⟨h, hm⟩ hs).2

end Sys2Proof.Machine

/-! The step and its clock, the delivered part, and what is discarded, answered and relayed at the ports. -/

namespace Sys2Proof.Machine

/-- Settles O1: the queue's front decides the branch of `step`. -/
theorem stepRunsFront : Obligations.StepRunsFront := by
  intro c rest s h
  unfold step
  rw [h]

/-! ### The clock -/

section clock

variable {s : State}

theorem ActionEntry.tick_eq (e : ActionEntry) :
    e.tick = { e with state := match e.state with
      | .issued d sent tel => .issued (d - 1) sent tel
      | .waiting => .waiting } := by
  obtain ⟨a, d, n, o, c, st⟩ := e
  cases st <;> rfl

theorem step_of_pending_nil (h : s.pending = []) : step s = s.idle := by
  unfold step
  rw [h]

theorem ActionEntry.isDue_iff {e : ActionEntry} : e.isDue = true ↔ ∃ sent tel, e.state = .issued 0 sent tel := by
  unfold ActionEntry.isDue
  cases e.state <;> simp

theorem idle_takes_due (h : dueExpiries s ≠ []) : ∃ c ∈ dueExpiries s, s.idle = exec c { s with draws := s.draws + 1 } := by
  unfold State.idle
  cases hd : dueExpiries s with
  | nil => exact absurd hd h
  | cons c cs =>
    have hlt : Config.expiryChoice s.draws % (cs.length + 1) < (c :: cs).length := Nat.mod_lt _ (Nat.succ_pos _)
    refine ⟨(c :: cs)[Config.expiryChoice s.draws % (cs.length + 1)], List.getElem_mem hlt, ?_⟩
    simp only [List.getElem?_eq_getElem hlt, Option.getD_some]

theorem mem_dueExpiries (c : Instr) : c ∈ dueExpiries s ↔
    c = .lineSilenceExpiry (Config.silenceOrder s.draws) ∧ s.silence = some 0
      ∨ (∃ p, c = .sampleStale p ∧ (s.pass p).est.life = some 0)
      ∨ (∃ e ∈ s.traffic.pool, c = .holdExpiry e.actuator ∧ e.timer = 0)
      ∨ ∃ e ∈ s.traffic.actions, c = .deadlineExpiry e.actuator ∧ ∃ sent tel, e.state = .issued 0 sent tel := by
  have hall : ∀ p : PassId, p ∈ allPasses := fun p => by fin_cases p <;> simp [allPasses]
  have hsilence : c ∈ (if s.silence = some 0 then [Instr.lineSilenceExpiry (Config.silenceOrder s.draws)] else [])
      ↔ c = .lineSilenceExpiry (Config.silenceOrder s.draws) ∧ s.silence = some 0 := by
    split <;> simp [*]
  simp only [dueExpiries, List.mem_append, List.mem_map, List.mem_filter, decide_eq_true_eq, ActionEntry.isDue_iff, hsilence,
    hall, true_and, or_assoc]
  refine or_congr Iff.rfl (or_congr ?_ (or_congr ?_ ?_))
  · exact ⟨fun ⟨p, h, e⟩ => ⟨p, e.symm, h⟩, fun ⟨p, e, h⟩ => ⟨p, h, e.symm⟩⟩
  · exact ⟨fun ⟨e, ⟨he, h⟩, hc⟩ => ⟨e, he, hc.symm, h⟩, fun ⟨e, he, hc, h⟩ => ⟨e, ⟨he, h⟩, hc.symm⟩⟩
  · exact ⟨fun ⟨e, ⟨he, h⟩, hc⟩ => ⟨e, he, hc.symm, h⟩, fun ⟨e, he, hc, h⟩ => ⟨e, ⟨he, h⟩, hc.symm⟩⟩

end clock

/-- Settles O2, by whether a timer has run out. -/
theorem idleLetsTimePass : Obligations.IdleLetsTimePass := by
  intro s hs
  refine ⟨fun hdue => ?_, fun hdue => ?_, mem_dueExpiries⟩
  · have hidle : s.idle = .next s.elapse := by
      unfold State.idle
      rw [hdue]
    rw [step_of_pending_nil hs, hidle]
    unfold State.elapse
    rw [funext ActionEntry.tick_eq]
    rfl
  · obtain ⟨c, hc, he⟩ := idle_takes_due hdue
    exact ⟨c, hc, (step_of_pending_nil hs).trans he⟩

/-! ### The delivered part -/

theorem startUp_of_factory (s : State) (h : s.tables = factoryTables) :
    s.startUp .powerOn = { State.reset with draws := s.draws, pending := s.pending } := by
  have hrest : s.restarted .powerOn = { State.reset with traffic := clearedTraffic, draws := s.draws, pending := s.pending } := by
    unfold State.restarted
    rw [h]
    rfl
  have hmode : ∀ p, ((s.restarted .powerOn).pass p).mode = .unconfigured := fun p => by
    rw [hrest]
    fin_cases p <;> rfl
  have hsafe : allPasses.foldl State.startSafe (s.restarted .powerOn) = s.restarted .powerOn :=
    List.foldlRecOn (motive := (· = _)) _ _ rfl fun u hu p _ => by
      unfold State.startSafe
      rw [hu, if_pos (hmode p)]
  have halert : ∀ u : State, (∀ p, (u.pass p).mode = .unconfigured) → allPasses.foldl State.startAlert u = u := fun u hm =>
    List.foldlRecOn (motive := (· = _)) _ _ rfl fun w hw p _ => by
      unfold State.startAlert
      rw [hw, if_neg (by simp [hm p])]
  have hnotice : s.startUp .powerOn = (s.restarted .powerOn).raise .device .restart ResetCause.powerOn.code := by
    unfold State.startUp
    rw [hsafe]
    exact halert _ hmode
  rw [hnotice, hrest]
  rfl

theorem factory_points_get (i : Fin 128) : factoryTables.points.get i = blankPoint := by
  simp [factoryTables, Vector.get_eq_getElem]

/-- Settles O3, by evaluating start-up on the factory tables. -/
theorem deliveredPartIsStarted : Obligations.DeliveredPartIsStarted := by
  refine ⟨fun s h => congrArg Host.Outcome.next (startUp_of_factory s h), ⟨rfl, rfl, factory_points_get, fun p => ?_⟩, rfl⟩
  fin_cases p <;> exact ⟨rfl, rfl, rfl, rfl, rfl⟩

section reset

theorem reset_pass (p : PassId) : State.reset.pass p = clearedPass .unconfigured := by fin_cases p <;> rfl

theorem reset_params (p : PassId) : State.reset.params p = factoryParams := by fin_cases p <;> rfl

theorem reset_marks (p : PassId) : State.reset.tables.marks.get p = false := by fin_cases p <;> rfl

theorem factory_pointsSound : PointsSound factoryTables :=
  have hv : ∀ i, (factoryTables.points.get i).valid ≠ true := fun i => by simp [factory_points_get, blankPoint]
  ⟨fun i h => absurd h (hv i), fun i _ _ h => absurd h (hv i)⟩

/-- The traffic after reset is reached from the empty one by a raise. -/
theorem reset_traffic : Prim State.reset.view False clearedTraffic State.reset.traffic :=
  .raise clearedTraffic .device .restart 1 1 (by simp [sourceFits, NoticeClass.ofDevice]) Nat.one_pos

theorem reset_actions : State.reset.traffic.actions = [] := rfl

end reset

/-- Settles O4: every pass is cleared, and one notice has been raised in the empty traffic. -/
theorem resetMeetsInvariants : Obligations.ResetMeetsInvariants := by
  refine ⟨fun p _ => ?_, fun p => ?_, fun p => ?_, (bounded_iff _).mpr (reset_traffic.bounded cleared_bounded),
    reset_traffic.noticed (by simp [ControlSide.noticed, clearedTraffic]),
    reset_traffic.pooled (by simp [Traffic.pooled, clearedTraffic]), ⟨⟨?_, fun a => ?_⟩, fun a => ?_, ?_⟩,
    (commandsSound_iff _).mpr ⟨factory_pointsSound, TrafficSound.cleared.of_same (.of_eq rfl) rfl⟩, fun p => ?_,
    fun p => ?_, (checked_iff _).mpr (reset_traffic.checked cleared_checked)⟩
  · rw [reset_pass]; exact cleared_balanced
  · rw [reset_pass]; exact cleared_sound
  · rw [reset_pass, reset_params]; exact clearedPass_estimateSound (by decide) _
  · exact Nat.zero_le _
  · exact ⟨Nat.zero_le _, Nat.zero_le _⟩
  · exact Nat.zero_le _
  · exact fun _ h => nomatch h
  · rw [reset_pass]; exact alarmSound_of_quiet rfl rfl (by simp [clearedPass, clearedAlarm])
  · rw [reset_pass, reset_params, reset_marks]; exact restartedPass_stored false false

/-! ### The line check (R1, R5) -/

section lineCheck

theorem checkBit_eq (r : Half) (bit : Bool) :
    checkBit r bit = (r <<< 1) ^^^ if (r.msb ^^ bit) = true then 0x1021#16 else 0#16 := by
  unfold checkBit
  cases hm : r.msb <;> cases bit <;> simp

/-- A byte goes into the register bit by bit, most significant first. -/
theorem checkByte_eq (r : Half) (b : Byte) :
    checkByte r b = ((List.range 8).map fun i => b.getMsbD i).foldl checkBit r := rfl

theorem lineCheck_eq (bytes : List Byte) :
    lineCheck bytes = (bytes.flatMap fun b => (List.range 8).map fun i => b.getMsbD i).foldl checkBit 0xFFFF#16 := by
  rw [List.foldl_flatMap]
  rfl

end lineCheck

/-- A telegram that fails its check, or meets a pending DEVICE-RESET, is not dealt with. -/
theorem receive_discarded {port : PortId} {t : Telegram} {s : State} (h : checkHolds t = false ∨ s.resetPending = true) :
    receive port t s = s := by
  have hfate : fate port t s = .badCheck ∨ fate port t s = .discarded := by
    unfold fate
    by_cases hc : checkHolds t = true
    · have hp : s.resetPending = true := h.resolve_left (by simp [hc])
      simp [hc, hp]
    · simp [hc]
  unfold receive
  obtain h | h := hfate <;> rw [h] <;> rfl

/-- Settles O8: the check register bit by bit, and the first two fates. -/
theorem discardsChangeNothing : Obligations.DiscardsChangeNothing := by
  have discarded : ∀ (c : Instr) (port : PortId) (t : Telegram) (s : State), arrival c = some (port, t) →
      checkHolds t = false ∨ s.resetPending = true → exec c s = .next s := fun c port t s hc h => by
    rw [exec_arrival hc, receive_discarded h]
  refine ⟨fun t => ?_, fun port t s h => discarded _ port t s rfl (.inl h),
    fun port t s _ h => discarded _ port t s rfl (.inr h), discarded⟩
  have hcheck : lineCheck (checkedBytes t)
      = ((checkedBytes t).flatMap fun b => (List.range 8).map fun i => b.getMsbD i).foldl
          (fun (r : Half) (bit : Bool) => (r <<< 1) ^^^ if (r.msb ^^ bit) = true then 0x1021#16 else 0#16) 0xFFFF#16 := by
    rw [lineCheck_eq, funext fun r => funext (checkBit_eq r)]
  constructor
  · unfold checkHolds
    rw [hcheck, beq_iff_eq]
    rfl
  · unfold withCheck
    rw [hcheck]
    rfl

/-! ### The ports -/

section ports

variable {port : PortId} {t : Telegram} {s : State} {c : Instr} {f : Fate}

/-- An arrival is dealt with by its telegram's fate. -/
theorem exec_of_fate (hc : arrival c = some (port, t)) (hf : fate port t s = f) : exec c s = .next (deal port t s f) := by
  rw [exec_arrival hc, receive, hf]

end ports

/-- Settles O10, fate by fate. -/
theorem portsAnswerAndRelay : Obligations.PortsAnswerAndRelay := by
  refine ⟨fun s => ⟨rfl, rfl⟩, fun port t s hf => ?_, fun t s hf => ?_, fun t s hf => ?_, fun t s hf => ?_⟩
  · exact exec_of_fate rfl hf
  · exact exec_of_fate rfl hf
  · exact exec_of_fate rfl hf
  · exact exec_of_fate rfl hf

end Sys2Proof.Machine

/-! What each port does with a telegram, and what an MRQ names: its fate by Destination, Kind and the Point Table. -/

namespace Sys2Proof.Machine

/-! ### The entry a search finds (R23) -/

section search

variable {tb : Tables} {i : Fin 128} {station point : Byte}

/-- A search finds the entry that alone meets its condition. -/
theorem find?_points_eq {P : PointEntry → Bool} (hi : P (tb.points.get i) = true)
    (honly : ∀ j, P (tb.points.get j) = true → j = i) : tb.points.toList.find? P = some (tb.points.get i) := by
  have hsome : (tb.points.toList.find? P).isSome = true := List.find?_isSome.mpr ⟨_, mem_points_iff.mpr ⟨i, rfl⟩, hi⟩
  obtain ⟨e, he⟩ := Option.isSome_iff_exists.mp hsome
  obtain ⟨j, rfl⟩ := mem_points_iff.mp (List.mem_of_find?_eq_some he)
  rw [he, honly j (List.find?_some he)]

/-- R23: no other valid entry has the (Station, Point) of a valid one. -/
theorem findPoint_eq_some (hp : PointsSound tb) (hv : (tb.points.get i).valid = true)
    (hs : (tb.points.get i).station = some station) (hpt : (tb.points.get i).point = some point) :
    findPoint tb station point = some (tb.points.get i) := by
  refine find?_points_eq (by simp [hv, hs, hpt]) fun j hj => ?_
  obtain ⟨hjv, hjs, hjp⟩ := of_decide_eq_true hj
  by_contra hne
  have hclash := hp.2 j i hne hjv hv
  simp [pointsClash, hjs, hjp, hs, hpt] at hclash

theorem findPoint_eq_none (h : ∀ i : Fin 128, (tb.points.get i).valid = true →
    ¬((tb.points.get i).station = some station ∧ (tb.points.get i).point = some point)) :
    findPoint tb station point = none := by
  refine List.find?_eq_none.mpr fun e he => ?_
  obtain ⟨i, rfl⟩ := mem_points_iff.mp he
  simpa using h i

theorem lookup_eq_none (h : ∀ i : Fin 128, (tb.points.get i).valid = true →
    ¬((tb.points.get i).station = some station ∧ (tb.points.get i).point = some point)) :
    lookup tb station point = none := by
  rw [lookup, findPoint_eq_none h]
  rfl

theorem lookup_eq_some {r : Role} {p : PassId} (hp : PointsSound tb) (hv : (tb.points.get i).valid = true)
    (hs : (tb.points.get i).station = some station) (hpt : (tb.points.get i).point = some point)
    (hr : (tb.points.get i).role = some r) (hpass : (tb.points.get i).pass = some p) :
    lookup tb station point = some
      { entry := tb.points.get i, role := r, pass := p, object := (tb.points.get i).object.getD 0 } := by
  rw [lookup, findPoint_eq_some hp hv hs hpt, Option.bind_some, hitOf, hr, hpass]

end search

/-! ### Fates by Destination and Kind (R6 to R9, R26, R28) -/

section fates

variable {t : Telegram} {s : State} {port : PortId} {h : Hit} {a : Actuator}

theorem fate_of_valid (hc : checkHolds t = true) (hr : s.resetPending = false) (ha : addressValid t = true) :
    fate port t s =
      if t.dest = 255 then .broadcast
      else if t.dest = s.tables.device.ownStation then
        if t.kind = 5 then (match port with | .control => .request (requestOf t) | .field => .refusedPort) else .ownOther
      else
        match port with
        | .control => if t.kind = 1 then commandFate s (lookup s.tables t.dest t.point) else .relay
        | .field => if t.kind = 2 then reportFate s (lookup s.tables t.src t.point) else .relay := by
  unfold fate
  rw [if_neg (by simp [hc]), if_neg (by simp [hr]), if_neg (by simp [ha])]
  rfl

theorem commandFate_eq_relay (hn : h.role.isCommand = false ∨ (s.pass h.pass).mode = .unconfigured) :
    commandFate s (some h) = .relay := by
  obtain hn | hn := hn
  · have hact : h.actuator = none := by
      unfold Hit.actuator
      split <;> first | rfl | simp_all [Role.isCommand]
    simp [commandFate, hact]
  · cases hact : h.actuator <;> simp [commandFate, hact, hn]

theorem actuator_of_commandRole (hr : a.commandRole = h.role) (hp : a.pass = h.pass) (ho : a.object = h.object) :
    h.actuator = some a := by
  unfold Hit.actuator
  rw [← hr, ← hp, ← ho]
  cases a with
  | gate p c => fin_cases c <;> rfl
  | signal p n => rfl
  | breaker p n => rfl

theorem commandFate_eq_command (hact : h.actuator = some a) (hm : (s.pass h.pass).mode ≠ .unconfigured) :
    commandFate s (some h) = .command a := by
  simp [commandFate, hact, hm]

end fates

/-! ### The field a request names (R171) -/

section fields

variable {t : Telegram} {n : Nat}

theorem PointSel.ofCode_eq_some_iff {sel : PointSel} : PointSel.ofCode n = some sel ↔ n = (fieldCode (.point 0 sel)).2.2 := by
  constructor
  · intro h
    unfold PointSel.ofCode at h
    split at h <;> cases h <;> rfl
  · rintro rfl
    cases sel <;> rfl

theorem DeviceSel.ofCode_eq_some_iff {sel : DeviceSel} : DeviceSel.ofCode n = some sel ↔ n = (fieldCode (.device sel)).2.2 := by
  constructor
  · intro h
    unfold DeviceSel.ofCode at h
    split at h <;> cases h <;> rfl
  · rintro rfl
    cases sel <;> rfl

theorem ParamSel.ofCode_eq_some_iff {sel : ParamSel} : ParamSel.ofCode n = some sel ↔ n = (fieldCode (.param 0 sel)).2.2 := by
  constructor
  · intro h
    unfold ParamSel.ofCode at h
    split at h <;> cases h <;> rfl
  · rintro rfl
    cases sel with
    | density w => cases w <;> rfl
    | _ => rfl

theorem NoticeClass.ofCode_eq_some_iff {c : NoticeClass} : NoticeClass.ofCode n = some c ↔ n = c.code := by
  constructor
  · intro h
    unfold NoticeClass.ofCode at h
    split at h <;> cases h <;> rfl
  · rintro rfl
    cases c <;> rfl

theorem Row.ofCode_eq_some_iff {r : Row} : Row.ofCode n = some r ↔ n = fieldCode.rowCode r := by
  constructor
  · intro h
    unfold Row.ofCode at h
    split at h <;> cases h <;> rfl
  · rintro rfl
    cases r <;> rfl

theorem TableColumn.ofCode_eq_some_iff {c : TableColumn} :
    TableColumn.ofCode n = some c ↔ n = (fieldCode (.cell 0 .gateOpen c)).2.2 := by
  constructor
  · intro h
    unfold TableColumn.ofCode at h
    split at h <;> cases h <;> rfl
  · rintro rfl
    cases c <;> rfl

theorem Wetness.ofCode_eq_some_iff {w : Wetness} : Wetness.ofCode n = some w ↔ n = w.code := by
  constructor
  · intro h
    unfold Wetness.ofCode at h
    split at h <;> cases h <;> rfl
  · rintro rfl
    cases w <;> rfl

theorem passTable_eq_some_iff {p : PassId} {k : Nat} : passTable n = some (p, k) ↔ n = 16 * (k + 1) + p.val ∧ k < 4 := by
  have hlt := p.isLt
  unfold passTable
  split
  · rename_i h
    rw [Option.map_eq_some_iff]
    constructor
    · rintro ⟨q, hq, he⟩
      have hmod := indexBelow_eq_some.mp hq
      cases he
      omega
    · rintro ⟨rfl, hk⟩
      exact ⟨p, indexBelow_eq_some.mpr (by omega), by simp; omega⟩
  · constructor
    · exact fun h => nomatch h
    · omega

/-- A table above 3 names a pass's table. -/
theorem tableField_of_ident (h1 : t.table.toNat ≠ 1) (h2 : t.table.toNat ≠ 2) (h3 : t.table.toNat ≠ 3) :
    tableField t = (passTable t.table.toNat).bind fun pk =>
      match pk with
      | (p, 0) => if t.ext.toNat = 0 then (ParamSel.ofCode t.qual.toNat).map (.param p) else none
      | (p, 1) => (Row.ofCode t.ext.toNat).bind fun r =>
          if t.qual.toNat = 6 then some (.holdTime p r) else (TableColumn.ofCode t.qual.toNat).map (.cell p r)
      | (p, 2) => if t.ext.toNat = 0 then (Wetness.ofCode t.qual.toNat).map (.opening p) else none
      | (p, _) => if t.ext.toNat = 0 then (indexBelow 3 t.qual.toNat).map (.grizzly p) else none := by
  unfold tableField
  split
  · exact absurd ‹_› h1
  · exact absurd ‹_› h2
  · exact absurd ‹_› h3
  · rfl

/-- The addressing of a stored field is one to one, table by table. -/
theorem tableField_eq_some_of_code {f : TableField} (h : (t.table.toNat, t.ext.toNat, t.qual.toNat) = fieldCode f) :
    tableField t = some f := by
  cases f with
  | point i sel =>
    obtain ⟨h1, h2, h3⟩ : t.table.toNat = 1 ∧ t.ext.toNat = i.val ∧ t.qual.toNat = (fieldCode (.point 0 sel)).2.2 := by
      simpa [fieldCode] using h
    simp [tableField, h1, indexBelow_eq_some.mpr h2, PointSel.ofCode_eq_some_iff.mpr h3]
  | device sel =>
    obtain ⟨h1, h2, h3⟩ : t.table.toNat = 2 ∧ t.ext.toNat = 0 ∧ t.qual.toNat = (fieldCode (.device sel)).2.2 := by
      simpa [fieldCode] using h
    simp [tableField, h1, h2, DeviceSel.ofCode_eq_some_iff.mpr h3]
  | noticeEnable c =>
    obtain ⟨h1, h2, h3⟩ : t.table.toNat = 3 ∧ t.ext.toNat = c.code ∧ t.qual.toNat = 0 := by simpa [fieldCode] using h
    simp [tableField, h1, NoticeClass.ofCode_eq_some_iff.mpr h2, h3]
  | noticePriority c =>
    obtain ⟨h1, h2, h3⟩ : t.table.toNat = 3 ∧ t.ext.toNat = c.code ∧ t.qual.toNat = 1 := by simpa [fieldCode] using h
    simp [tableField, h1, NoticeClass.ofCode_eq_some_iff.mpr h2, h3]
  | param p sel =>
    obtain ⟨h1, h2, h3⟩ : t.table.toNat = 16 + p.val ∧ t.ext.toNat = 0 ∧ t.qual.toNat = (fieldCode (.param 0 sel)).2.2 := by
      simpa [fieldCode] using h
    rw [tableField_of_ident (by omega) (by omega) (by omega), (passTable_eq_some_iff (p := p) (k := 0)).mpr ⟨by omega, by omega⟩]
    simp [h2, ParamSel.ofCode_eq_some_iff.mpr h3]
  | cell p r c =>
    obtain ⟨h1, h2, h3⟩ : t.table.toNat = 32 + p.val ∧ t.ext.toNat = fieldCode.rowCode r
        ∧ t.qual.toNat = (fieldCode (.cell 0 .gateOpen c)).2.2 := by simpa [fieldCode] using h
    have hsix : t.qual.toNat ≠ 6 := by rw [h3]; cases c <;> simp [fieldCode]
    rw [tableField_of_ident (by omega) (by omega) (by omega), (passTable_eq_some_iff (p := p) (k := 1)).mpr ⟨by omega, by omega⟩]
    simp [Row.ofCode_eq_some_iff.mpr h2, hsix, TableColumn.ofCode_eq_some_iff.mpr h3]
  | holdTime p r =>
    obtain ⟨h1, h2, h3⟩ : t.table.toNat = 32 + p.val ∧ t.ext.toNat = fieldCode.rowCode r ∧ t.qual.toNat = 6 := by
      simpa [fieldCode] using h
    rw [tableField_of_ident (by omega) (by omega) (by omega), (passTable_eq_some_iff (p := p) (k := 1)).mpr ⟨by omega, by omega⟩]
    simp [Row.ofCode_eq_some_iff.mpr h2, h3]
  | opening p w =>
    obtain ⟨h1, h2, h3⟩ : t.table.toNat = 48 + p.val ∧ t.ext.toNat = 0 ∧ t.qual.toNat = w.code := by
      simpa [fieldCode] using h
    rw [tableField_of_ident (by omega) (by omega) (by omega), (passTable_eq_some_iff (p := p) (k := 2)).mpr ⟨by omega, by omega⟩]
    simp [h2, Wetness.ofCode_eq_some_iff.mpr h3]
  | grizzly p n =>
    obtain ⟨h1, h2, h3⟩ : t.table.toNat = 64 + p.val ∧ t.ext.toNat = 0 ∧ t.qual.toNat = n.val := by
      simpa [fieldCode] using h
    rw [tableField_of_ident (by omega) (by omega) (by omega), (passTable_eq_some_iff (p := p) (k := 3)).mpr ⟨by omega, by omega⟩]
    simp [h2, indexBelow_eq_some.mpr h3]

/-- A per-pass field is named by its pass's table. -/
theorem fieldCode_of_passTable {f : TableField} (h1 : t.table.toNat ≠ 1) (h2 : t.table.toNat ≠ 2) (h3 : t.table.toNat ≠ 3)
    (h : tableField t = some f) : (t.table.toNat, t.ext.toNat, t.qual.toNat) = fieldCode f := by
  rw [tableField_of_ident h1 h2 h3] at h
  obtain ⟨⟨p, k⟩, hpk, hf⟩ := Option.bind_eq_some_iff.mp h
  obtain ⟨hident, hk⟩ := passTable_eq_some_iff.mp hpk
  rw [hident]
  split at hf
  · rename_i heq
    cases heq
    split at hf
    · rename_i hext
      obtain ⟨sel, hsel, rfl⟩ := Option.map_eq_some_iff.mp hf
      rw [hext, ParamSel.ofCode_eq_some_iff.mp hsel]
      rfl
    · cases hf
  · rename_i heq
    cases heq
    obtain ⟨r, hr, hf⟩ := Option.bind_eq_some_iff.mp hf
    rw [Row.ofCode_eq_some_iff.mp hr]
    split at hf
    · rename_i hsix
      cases hf
      rw [hsix]
      rfl
    · obtain ⟨c, hc, rfl⟩ := Option.map_eq_some_iff.mp hf
      rw [TableColumn.ofCode_eq_some_iff.mp hc]
      rfl
  · rename_i heq
    cases heq
    split at hf
    · rename_i hext
      obtain ⟨w, hw, rfl⟩ := Option.map_eq_some_iff.mp hf
      rw [hext, Wetness.ofCode_eq_some_iff.mp hw]
      rfl
    · cases hf
  · rename_i hne0 hne1 hne2 heq
    cases heq
    split at hf
    · rename_i hext
      obtain ⟨n, hn, rfl⟩ := Option.map_eq_some_iff.mp hf
      have hthree : k = 3 := by
        have h0 : k ≠ 0 := hne0
        have h1 : k ≠ 1 := hne1
        have h2 : k ≠ 2 := hne2
        omega
      rw [hext, indexBelow_eq_some.mp hn, hthree]
      rfl
    · cases hf

theorem fieldCode_of_tableField {f : TableField} (h : tableField t = some f) :
    (t.table.toNat, t.ext.toNat, t.qual.toNat) = fieldCode f := by
  by_cases h1 : t.table.toNat = 1
  · simp only [tableField, h1, Option.bind_eq_some_iff, Option.map_eq_some_iff] at h
    obtain ⟨i, hi, sel, hsel, rfl⟩ := h
    rw [h1, indexBelow_eq_some.mp hi, PointSel.ofCode_eq_some_iff.mp hsel]
    rfl
  by_cases h2 : t.table.toNat = 2
  · simp only [tableField, h2] at h
    split at h
    · rename_i hext
      obtain ⟨sel, hsel, rfl⟩ := Option.map_eq_some_iff.mp h
      rw [h2, hext, DeviceSel.ofCode_eq_some_iff.mp hsel]
      rfl
    · cases h
  by_cases h3 : t.table.toNat = 3
  · simp only [tableField, h3, Option.bind_eq_some_iff] at h
    obtain ⟨c, hc, hf⟩ := h
    rw [h3, NoticeClass.ofCode_eq_some_iff.mp hc]
    split at hf
    · rename_i hsel
      cases hf
      rw [hsel]
      rfl
    · rename_i hsel
      cases hf
      rw [hsel]
      rfl
    · cases hf
  · exact fieldCode_of_passTable h1 h2 h3 h

/-- R169, R171: a WRITE-ENTRY is a write row's by its field. -/
theorem writeRequest_eq (o : Option TableField) : writeRequest o =
    match o with
    | some (.point i sel) => if sel = .valid then .writeValid i else .writePointField i sel
    | some (.param p sel) =>
      if sel = .configured then .writeConfigured p else if sel = .len then .writeL p else .writeEntry (some (.param p sel))
    | some (.grizzly p n) => .writeGrizzlyLimit p n
    | some (.device sel) => if sel = .silenceTime then .writeLineSilenceTime else .writeEntry (some (.device sel))
    | other => .writeEntry other := by
  cases o with
  | none => rfl
  | some f =>
    cases f with
    | point i sel => cases sel <;> rfl
    | param p sel => cases sel <;> rfl
    | device sel => cases sel <;> rfl
    | _ => rfl

end fields

/-- Settles O6: the fate by Destination, Kind and lookup; the request by its code and its field's addressing. -/
theorem controlPortSorts : Obligations.ControlPortSorts := by
  refine ⟨fun t s hp hc hr ha => ?_, fun t => ⟨fun f => ⟨fieldCode_of_tableField, tableField_eq_some_of_code⟩,
    fun p => indexBelow_eq_some, ?_⟩⟩
  · rw [fate_of_valid hc hr ha]
    refine ⟨fun hd => if_pos hd, fun hb hd => ?_, fun hb hd => ⟨fun hk => ?_, fun hk => ⟨fun hnone => ?_, ?_⟩⟩⟩
    · rw [if_neg hb, if_pos hd]
    · rw [if_neg hb, if_neg hd]
      exact if_neg hk
    · rw [if_neg hb, if_neg hd, lookup_eq_none hnone]
      exact if_pos hk
    · intro i r p hv hs hpt hrole hpass
      rw [if_neg hb, if_neg hd, lookup_eq_some hp hv hs hpt hrole hpass]
      refine ⟨fun hn => (if_pos hk).trans (commandFate_eq_relay hn), fun a hra hpa hoa hm => ?_⟩
      have hobject : a.object = (s.tables.points.get i).object.getD 0 := by rw [hoa, Option.getD_some]
      exact (if_pos hk).trans (commandFate_eq_command (actuator_of_commandRole hra hpa hobject) hm)
  · unfold requestOf
    rw [writeRequest_eq] <;> rfl

/-- Settles O7: the fate by Destination, Kind and lookup. -/
theorem fieldPortSorts : Obligations.FieldPortSorts := by
  intro t s hp hc hr ha
  rw [fate_of_valid hc hr ha]
  refine ⟨fun hd => if_pos hd, fun hb hd => ?_, fun hb hd => ⟨fun hk => ?_, fun hk => ⟨fun hnone => ?_, ?_⟩⟩⟩
  · rw [if_neg hb, if_pos hd]
  · rw [if_neg hb, if_neg hd]
    exact if_neg hk
  · rw [if_neg hb, if_neg hd, lookup_eq_none hnone]
    exact if_pos hk
  · intro i r p hv hs hpt hrole hpass
    rw [if_neg hb, if_neg hd, lookup_eq_some hp hv hs hpt hrole hpass]
    refine ⟨fun hn => (if_pos hk).trans (if_pos hn), fun hn hm => (if_pos hk).trans (if_neg ?_)⟩
    rintro (h | h)
    · exact absurd (hn.symm.trans h) (by decide)
    · exact hm h

end Sys2Proof.Machine

/-! Placing in a transmit queue, the arbiters, and what raising a notice does (R10 to R14, R164 to R166). -/

namespace Sys2Proof.Machine

/-! ### The first that meets a test -/

section first

variable {α : Type} {f : α → Bool} {pre post : List α} {x y : α}

theorem find?_first (hpre : ∀ z ∈ pre, f z = false) (hx : f x = true) : (pre ++ x :: post).find? f = some x := by
  rw [List.find?_append, List.find?_eq_none.mpr (by simpa using hpre), List.find?_cons_of_pos hx, Option.none_or]

theorem eraseP_first (hpre : ∀ z ∈ pre, f z = false) (hx : f x = true) : (pre ++ x :: post).eraseP f = pre ++ post := by
  rw [List.eraseP_append_right _ (by simpa using hpre), List.eraseP_cons_of_pos hx]

theorem any_first (hx : f x = true) : (pre ++ x :: post).any f = true := by simp [hx]

theorem replaceFirst_first (hpre : ∀ z ∈ pre, f z = false) (hx : f x = true) :
    replaceFirst f y (pre ++ x :: post) = pre ++ y :: post := by
  induction pre with
  | nil => simp [replaceFirst, hx]
  | cons z zs ih =>
    rw [List.cons_append, replaceFirst, if_neg (by simp [hpre z]), ih fun w hw => hpre w (List.mem_cons_of_mem _ hw)]
    rfl

theorem any_eq_false_of {l : List α} (h : ∀ z ∈ l, f z = false) : l.any f = false :=
  List.any_eq_false.mpr fun z hz => by simp [h z hz]

end first

/-! ### Classes and queues (R10, R11) -/

section enqueue

variable {q x : Queued} {l pre post : List Queued} {fs : List (Queued → Bool)} {f : Queued → Bool}

theorem Queued.isRelayed_iff : q.isRelayed = true ↔ q.cls = .relayed := by
  unfold Queued.isRelayed
  split <;> simp_all

theorem Queued.isVerdict_iff : q.isVerdict = true ↔ q.cls = .verdict := by
  unfold Queued.isVerdict
  split <;> simp_all

theorem Queued.isReply_iff : q.isReply = true ↔ ∃ b, q.cls = .reply b := by
  unfold Queued.isReply
  split <;> simp_all

theorem Queued.isRefusedPort_iff : q.isRefusedPort = true ↔ q.cls = .refusedPort := by
  unfold Queued.isRefusedPort
  split <;> simp_all

theorem Queued.isAnswer_iff : q.isAnswer = true ↔ q.cls = .verdict ∨ (∃ b, q.cls = .reply b) ∨ q.cls = .refusedPort := by
  unfold Queued.isAnswer
  cases q.cls <;> simp

theorem Queued.endsInReset_iff : q.endsInReset = true ↔ q.cls = .reply true := by
  unfold Queued.endsInReset
  cases q.cls <;> simp

theorem sameReport_iff : sameReport q x = true ↔
    x.cls = .relayed ∧ x.tel.kind = 2 ∧ x.tel.src = q.tel.src ∧ x.tel.point = q.tel.point := by
  simp [sameReport, Queued.isRelayed_iff, kindRPT, and_assoc]

theorem enqueue_of_room (h : l.length < 48) : enqueue q l = (l ++ [q], false) := if_pos h

theorem enqueue_of_full (h : 48 ≤ l.length) : enqueue q l = enqueueFull q l := if_neg (Nat.not_lt.mpr h)

/-- The oldest of the first class that has one leaves. -/
theorem displace_first (hpre : ∀ y ∈ pre, f y = false) (hx : f x = true) :
    displace q (f :: fs) (pre ++ x :: post) = pre ++ post ++ [q] := by
  rw [displace, if_pos (any_first hx), eraseP_first hpre hx]

theorem displace_skip (h : ∀ y ∈ l, f y = false) : displace q (f :: fs) l = displace q fs l := by
  rw [displace, if_neg (by simp [any_eq_false_of h])]

theorem enqueueFull_report (hc : q.cls = .relayed) (hk : q.tel.kind = 2) (hpre : ∀ y ∈ pre, sameReport q y = false)
    (hx : sameReport q x = true) : enqueueFull q (pre ++ x :: post) = (pre ++ q :: post, false) := by
  unfold enqueueFull
  rw [hc]
  simp only [replaceFirst_first hpre hx]
  exact if_pos ⟨hk, any_first hx⟩

theorem enqueueFull_lost (hc : q.cls = .relayed) (h : q.tel.kind ≠ 2 ∨ ∀ y ∈ l, sameReport q y = false) :
    enqueueFull q l = (l, true) := by
  unfold enqueueFull
  rw [hc]
  refine if_neg fun hn => ?_
  obtain h | h := h
  · exact h hn.1
  · rw [any_eq_false_of h] at hn
    exact absurd hn.2 (by decide)

theorem enqueueFull_answer {b : Bool} (hc : q.cls = .verdict ∨ q.cls = .reply b) :
    enqueueFull q l = (displace q [Queued.isRelayed, Queued.isVerdict, Queued.isReply] l, true) := by
  unfold enqueueFull
  obtain h | h := hc <;> rw [h]

theorem enqueueFull_field {a : Actuator} {d : Direction} (hc : q.cls = .action a d ∨ q.cls = .refusedPort) :
    enqueueFull q l = (displace q [Queued.isRelayed, Queued.isRefusedPort] l, true) := by
  unfold enqueueFull
  obtain h | h := hc <;> rw [h]

theorem enqueueFull_over_relayed (hc : q.cls ≠ .relayed) (hpre : ∀ y ∈ pre, y.isRelayed = false) (hx : x.isRelayed = true) :
    enqueueFull q (pre ++ x :: post) = (pre ++ post ++ [q], true) := by
  cases h : q.cls with
  | relayed => exact absurd h hc
  | verdict => rw [enqueueFull_answer (b := false) (.inl h), displace_first hpre hx]
  | reply b => rw [enqueueFull_answer (.inr h), displace_first hpre hx]
  | action a d => rw [enqueueFull_field (.inl h), displace_first hpre hx]
  | refusedPort => rw [enqueueFull_field (a := .gate 0 0) (d := .safe) (.inr h), displace_first hpre hx]

end enqueue

/-! ### The Control Port's arbiter (R13, R14) -/

section arbiter

variable {tb : Tables} {dev : DeviceParams} {c : ControlSide} {q : Queued} {l pre post : List Queued} {e : NoticeEntry}
variable {npre npost : List NoticeEntry} {f : Queued → Bool} {g : NoticeEntry → Bool} {x : Sending}

theorem ControlSide.arbitrate_busy (h : c.port.sending = some x) : c.arbitrate dev = c := by
  unfold ControlSide.arbitrate
  rw [h]

theorem Port.choose_first {p : Port} (hq : p.queue = pre ++ q :: post) (hpre : ∀ y ∈ pre, f y = false) (hx : f q = true) :
    p.choose f = some { p with queue := pre ++ post, sending := some { tel := q.tel, endsInReset := q.endsInReset } } := by
  unfold Port.choose
  rw [hq, find?_first hpre hx, eraseP_first hpre hx]
  rfl

theorem Port.choose_none {p : Port} (h : ∀ y ∈ p.queue, f y = false) : p.choose f = none := by
  unfold Port.choose
  rw [List.find?_eq_none.mpr (by simpa using h)]
  rfl

theorem ControlSide.sendNotice_first (hn : c.notices = npre ++ e :: npost) (hpre : ∀ y ∈ npre, g y = false) (hx : g e = true) :
    c.sendNotice dev g = some
      { port := { c.port with sending := some { tel := noticeTelegram dev e, endsInReset := false } }
        notices := npre ++ npost } := by
  unfold ControlSide.sendNotice
  rw [hn, find?_first hpre hx, eraseP_first hpre hx]
  rfl

theorem ControlSide.sendNotice_none (h : ∀ y ∈ c.notices, g y = false) : c.sendNotice dev g = none := by
  unfold ControlSide.sendNotice
  rw [List.find?_eq_none.mpr (by simpa using h)]
  rfl

theorem NoticeEntry.isHigh_eq_false : e.isHigh = false ↔ e.priority = .low := by
  unfold NoticeEntry.isHigh
  cases e.priority <;> simp

theorem NoticeEntry.isHigh_eq_true : e.isHigh = true ↔ e.priority = .high := by
  unfold NoticeEntry.isHigh
  cases e.priority <;> simp

variable (hidle : c.port.sending = none)
include hidle

/-- R14: the oldest Answer goes first. -/
theorem ControlSide.arbitrate_answer (hq : c.port.queue = pre ++ q :: post) (hpre : ∀ y ∈ pre, y.isAnswer = false)
    (hx : q.isAnswer = true) : c.arbitrate dev =
      { c with
        port := { c.port with
          queue := pre ++ post, sending := some { tel := q.tel, endsInReset := q.endsInReset } } } := by
  unfold ControlSide.arbitrate
  rw [hidle, Port.choose_first hq hpre hx]

/-- R14: then the earliest-made high-priority notice. -/
theorem ControlSide.arbitrate_high (hq : ∀ y ∈ c.port.queue, y.isAnswer = false) (hn : c.notices = npre ++ e :: npost)
    (hpre : ∀ y ∈ npre, y.priority = .low) (he : e.priority = .high) : c.arbitrate dev =
      { port := { c.port with sending := some { tel := noticeTelegram dev e, endsInReset := false } }
        notices := npre ++ npost } := by
  unfold ControlSide.arbitrate
  rw [hidle, Port.choose_none hq, ControlSide.sendNotice_first hn (fun y hy => NoticeEntry.isHigh_eq_false.mpr (hpre y hy))
    (NoticeEntry.isHigh_eq_true.mpr he)]

variable (hq : ∀ y ∈ c.port.queue, y.isAnswer = false) (hlow : ∀ e ∈ c.notices, e.priority = .low)
include hq hlow

/-- R14: then the oldest relayed telegram. -/
theorem ControlSide.arbitrate_relayed (hr : c.port.queue = pre ++ q :: post) (hpre : ∀ y ∈ pre, y.isRelayed = false)
    (hx : q.isRelayed = true) : c.arbitrate dev =
      { c with
        port := { c.port with
          queue := pre ++ post, sending := some { tel := q.tel, endsInReset := q.endsInReset } } } := by
  unfold ControlSide.arbitrate
  rw [hidle, Port.choose_none hq, ControlSide.sendNotice_none fun y hy => NoticeEntry.isHigh_eq_false.mpr (hlow y hy),
    Port.choose_first hr hpre hx]

/-- R14: then the earliest-made low-priority notice; else the line stays idle. -/
theorem ControlSide.arbitrate_last (hr : ∀ y ∈ c.port.queue, y.isRelayed = false) : c.arbitrate dev =
    (c.sendNotice dev fun _ => true).getD c := by
  unfold ControlSide.arbitrate
  rw [hidle, Port.choose_none hq, ControlSide.sendNotice_none fun y hy => NoticeEntry.isHigh_eq_false.mpr (hlow y hy),
    Port.choose_none hr]

end arbiter

/-! ### Raising a notice (R165) -/

section raise

variable {tb : Tables} {c : ControlSide} {src : NoticeSource} {cls : NoticeClass} {n k : Nat} {x : Sending}

/-- The entry that `k` raises make. -/
def madeNotice (tb : Tables) (src : NoticeSource) (cls : NoticeClass) (k n : Nat) : NoticeEntry :=
  { source := src, cls := cls, priority := (tb.notices.get cls).priority, count := min k Config.countCeiling, detail := n }

theorem ControlSide.raiseMany_disabled (h : (tb.notices.get cls).enabled = false) : c.raiseMany tb src cls k n = c := by
  unfold ControlSide.raiseMany
  rw [h]
  rfl

variable (hen : (tb.notices.get cls).enabled = true)
include hen

theorem ControlSide.raiseMany_bump {y : NoticeEntry} (hy : y ∈ c.notices) (hs : y.source = src) (hc : y.cls = cls) :
    c.raiseMany tb src cls k n
      = { c with notices := c.notices.map fun e => if e.isFor src cls then e.bump k n else e } := by
  unfold ControlSide.raiseMany
  rw [hen, if_neg (by decide), if_pos (List.any_eq_true.mpr ⟨y, hy, NoticeEntry.isFor_iff.mpr ⟨hs, hc⟩⟩)]

theorem ControlSide.raiseMany_fresh (h : ∀ y ∈ c.notices, ¬(y.source = src ∧ y.cls = cls)) :
    c.raiseMany tb src cls k n
      = ControlSide.arbitrate tb.device { c with notices := c.notices ++ [madeNotice tb src cls k n] } := by
  unfold ControlSide.raiseMany
  rw [hen, if_neg (by decide), if_neg ?_]
  · rfl
  · rw [any_eq_false_of fun y hy => by simpa [NoticeEntry.isFor] using h y hy]
    decide

theorem ControlSide.raiseMany_busy (hx : c.port.sending = some x) (h : ∀ y ∈ c.notices, ¬(y.source = src ∧ y.cls = cls)) :
    c.raiseMany tb src cls k n = { c with notices := c.notices ++ [madeNotice tb src cls k n] } := by
  rw [ControlSide.raiseMany_fresh hen h]
  exact ControlSide.arbitrate_busy hx

/-- R13: on an idle line with nothing else to send the new entry is chosen at once. -/
theorem ControlSide.raiseMany_idle (hx : c.port.sending = none) (hq : c.port.queue = []) (hn : c.notices = []) :
    c.raiseMany tb src cls k n =
      { c with
        port := { c.port with
          sending := some { tel := noticeTelegram tb.device (madeNotice tb src cls k n), endsInReset := false } } } := by
  rw [ControlSide.raiseMany_fresh hen (by simp [hn])]
  obtain ⟨⟨queue, overrun, sending⟩, notices⟩ := c
  subst hx hq hn
  cases hp : (madeNotice tb src cls k n).priority with
  | high => exact ControlSide.arbitrate_high rfl (by simp) (npre := []) (npost := []) rfl (by simp) hp
  | low =>
    refine (ControlSide.arbitrate_last rfl (by simp) (by simpa using hp) (by simp)).trans ?_
    rfl

end raise

section raise

variable {tb : Tables} {dev : DeviceParams} {c : ControlSide} {src : NoticeSource} {cls : NoticeClass} {n k : Nat} {x : Sending}

theorem ControlSide.arbitrate_overrun : (c.arbitrate dev).port.overrun = c.port.overrun := by
  refine ControlSide.arbitrate_keeps (P := fun c' => c'.port.overrun = c.port.overrun) (fun f p hp => ?_) (fun f c' hc => ?_) rfl
  · obtain ⟨y, -, -, rfl⟩ := Port.choose_eq_some hp
    rfl
  · obtain ⟨e, -, -, rfl⟩ := ControlSide.sendNotice_eq_some hc
    rfl

theorem ControlSide.raiseMany_overrun : (c.raiseMany tb src cls k n).port.overrun = c.port.overrun := by
  obtain e | e | ⟨-, e⟩ := c.raiseMany_cases tb src cls k n <;> rw [e]
  exact ControlSide.arbitrate_overrun

/-- A busy line stays as it is while a notice is raised. -/
theorem ControlSide.raiseMany_sending (hx : c.port.sending = some x) :
    (c.raiseMany tb src cls k n).port.sending = some x := by
  obtain e | e | ⟨-, e⟩ := c.raiseMany_cases tb src cls k n <;> rw [e]
  · exact hx
  · exact hx
  · have hbusy : ∀ {d : ControlSide}, d.port.sending = some x → (d.arbitrate tb.device).port.sending = some x := fun hd => by
      rw [ControlSide.arbitrate_busy hd]
      exact hd
    exact hbusy hx

end raise

/-! ### Placing (R10 to R13) -/

section place

variable {tb : Tables} {q : Queued} {c : ControlSide} {tr : Traffic} {x : Sending}

theorem ControlSide.place_overrun :
    (c.place tb q).port.overrun = (c.port.overrun || (enqueue q c.port.queue).2) := by
  unfold ControlSide.place
  rw [ControlSide.arbitrate_overrun]
  split
  · exact ControlSide.raiseMany_overrun
  · rfl

theorem ControlSide.place_busy (hx : c.port.sending = some x) :
    c.place tb q =
      let r := enqueue q c.port.queue
      let placed : ControlSide := { c with port := { c.port with queue := r.1, overrun := c.port.overrun || r.2 } }
      if r.2 = true then placed.raise tb .device .overrun 0 else placed := by
  unfold ControlSide.place
  simp only
  split
  · exact ControlSide.arbitrate_busy (ControlSide.raiseMany_sending hx)
  · exact ControlSide.arbitrate_busy hx

/-- R10, R13: in a queue with room a telegram waits on a busy line. -/
theorem ControlSide.place_room_busy (hr : c.port.queue.length < 48) (hx : c.port.sending = some x) :
    c.place tb q = { c with port := { c.port with queue := c.port.queue ++ [q] } } := by
  rw [ControlSide.place_busy hx, enqueue_of_room hr]
  simp

/-- R13: with nothing else to send it is chosen at once on an idle line. -/
theorem ControlSide.place_idle (hx : c.port.sending = none) (hq : c.port.queue = []) (hn : c.notices = [])
    (hcls : q.isAnswer = true ∨ q.isRelayed = true) :
    c.place tb q =
      { c with port := { c.port with sending := some { tel := q.tel, endsInReset := q.endsInReset } } } := by
  obtain ⟨⟨queue, overrun, sending⟩, notices⟩ := c
  subst hx hq hn
  have hplace : ControlSide.place tb q ⟨⟨[], overrun, none⟩, []⟩ = ControlSide.arbitrate tb.device ⟨⟨[q], overrun, none⟩, []⟩ := by
    simp [ControlSide.place, enqueue_of_room]
  rw [hplace]
  by_cases ha : q.isAnswer = true
  · exact ControlSide.arbitrate_answer rfl (pre := []) (post := []) rfl (by simp) ha
  · exact ControlSide.arbitrate_relayed rfl (by simpa using ha) (by simp) (pre := []) (post := []) rfl (by simp)
      (hcls.resolve_left ha)

theorem Traffic.fieldArbitrate_busy (hx : tr.field.sending = some x) : tr.fieldArbitrate = tr := by
  unfold Traffic.fieldArbitrate
  rw [hx]

theorem Traffic.fieldArbitrate_overrun : tr.fieldArbitrate.field.overrun = tr.field.overrun := by
  obtain e | ⟨q, rest, -, -, e⟩ := tr.fieldArbitrate_cases <;> rw [e]

theorem Traffic.placeField_overrun :
    (tr.placeField tb q).field.overrun = (tr.field.overrun || (enqueue q tr.field.queue).2) := by
  obtain ⟨ctl, e⟩ := Traffic.placeField_eq tb q tr
  rw [e, Traffic.fieldArbitrate_overrun]

theorem Traffic.placeField_busy (hx : tr.field.sending = some x) :
    tr.placeField tb q =
      let r := enqueue q tr.field.queue
      let placed : Traffic := { tr with field := { tr.field with queue := r.1, overrun := tr.field.overrun || r.2 } }
      if r.2 = true then placed.raise tb .device .overrun 1 else placed := by
  unfold Traffic.placeField
  simp only
  split
  · exact Traffic.fieldArbitrate_busy hx
  · exact Traffic.fieldArbitrate_busy hx

theorem Traffic.placeField_room_busy (hr : tr.field.queue.length < 48) (hx : tr.field.sending = some x) :
    tr.placeField tb q = { tr with field := { tr.field with queue := tr.field.queue ++ [q] } } := by
  rw [Traffic.placeField_busy hx, enqueue_of_room hr]
  simp

theorem fieldChoice_singleton : fieldChoice [q] = some (q, []) := by
  cases h : q.isSafeAction <;> simp [fieldChoice, h]

theorem Traffic.placeField_idle (hx : tr.field.sending = none) (hq : tr.field.queue = []) :
    tr.placeField tb q =
      { tr with
        field := { tr.field with sending := some { tel := q.tel, endsInReset := false } }
        actions := noteSent q tr.actions } := by
  obtain ⟨ctl, ⟨queue, overrun, sending⟩, pool, actions, tag, history⟩ := tr
  subst hx hq
  simp [Traffic.placeField, enqueue_of_room, Traffic.fieldArbitrate, fieldChoice_singleton]

theorem Traffic.placeControl_eq : tr.placeControl tb q = { tr with ctl := tr.ctl.place tb q } := rfl

end place

/-- Settles O12: the queue by the newcomer's class, the arbiter on a busy and on an idle line, and a raise by the list. -/
theorem placingInAQueue : Obligations.PlacingInAQueue := by
  refine ⟨fun tb q tr => ⟨fun hr => ⟨fun x hx => Traffic.placeField_room_busy hr hx, Traffic.placeField_idle⟩,
      fun hr => ⟨fun x hx => ?_, fun hx hq hn hcls => ?_⟩⟩,
    fun q x => ⟨Queued.isRelayed_iff, Queued.isVerdict_iff, Queued.isReply_iff, Queued.isRefusedPort_iff,
      Queued.isAnswer_iff, Queued.endsInReset_iff, sameReport_iff⟩,
    fun q l h => enqueue_of_room h,
    fun q l h => ⟨fun hc => ⟨?_, fun hl => ?_⟩, fun hc pre x post hl hpre hx => ?_, fun hnone => ⟨fun b hc => ⟨?_, ?_⟩, ?_⟩⟩,
    fun tb q tr => ⟨ControlSide.place_overrun, Traffic.placeField_overrun, fun x hx => ?_,
      fun x hx => Traffic.placeField_busy hx⟩,
    fun tb src cls n tr => ⟨fun hd => ?_, fun he => ⟨fun y hy hs hc => ?_, fun hf => ⟨fun x hx => ?_, fun hx hq hn => ?_⟩⟩⟩⟩
  · rw [Traffic.placeControl_eq, ControlSide.place_room_busy hr hx]
  · rw [Traffic.placeControl_eq, ControlSide.place_idle hx hq hn hcls]
  · intro pre x post hl hk hx hpre
    rw [enqueue_of_full h, hl, enqueueFull_report hc hk hpre hx]
  · rw [enqueue_of_full h, enqueueFull_lost hc hl]
  · rw [enqueue_of_full h, hl, enqueueFull_over_relayed hc hpre hx]
  · intro pre x post hl hpre hx
    rw [enqueue_of_full h, enqueueFull_answer hc, displace_skip hnone, hl, displace_first hpre hx]
  · intro hv pre x post hl hpre hx
    rw [enqueue_of_full h, enqueueFull_answer hc, displace_skip hnone, displace_skip hv, hl, displace_first hpre hx]
  · intro a d hc pre x post hl hpre hx
    rw [enqueue_of_full h, enqueueFull_field hc, displace_skip hnone, hl, displace_first hpre hx]
  · rw [Traffic.placeControl_eq, ControlSide.place_busy hx]
    simp only
    split <;> rfl
  · unfold Traffic.raise ControlSide.raise
    rw [ControlSide.raiseMany_disabled hd]
  · unfold Traffic.raise ControlSide.raise
    rw [ControlSide.raiseMany_bump he hy hs hc]
    simp only [NoticeEntry.isFor_iff]
    rfl
  · unfold Traffic.raise ControlSide.raise
    rw [ControlSide.raiseMany_busy he hx hf]
    rfl
  · unfold Traffic.raise ControlSide.raise
    rw [ControlSide.raiseMany_idle he hx hq hn]
    rfl

/-- The Control Port's line falls idle. -/
def ControlSide.freed (c : ControlSide) : ControlSide := { c with port := { c.port with sending := none } }

/-- LINE_FREE on a busy Control Port, where it does not end the DONE of a DEVICE-RESET. -/
theorem exec_lineFree_control {s : State} {x : Sending} {c : ControlSide} (hx : s.traffic.ctl.port.sending = some x)
    (he : x.endsInReset = false)
    (hc : s.traffic.ctl.freed.arbitrate s.tables.device = c) :
    exec (.lineFree .control) s = .next { s with traffic := { s.traffic with ctl := c } } := by
  subst hc
  simp [exec, execLineFree, State.controlLineFree, hx, he, State.onTraffic, ControlSide.freed]

/-- R1: the Qualifier of a notice names its source. -/
theorem noticeTelegram_eq (dev : DeviceParams) (e : NoticeEntry) : noticeTelegram dev e = withCheck
    { dest := dev.noticeStation, src := dev.ownStation, kind := 4, point := BitVec.ofNat 8 e.cls.code, tag := 0
      qual := match e.source with
        | .pass p => BitVec.ofNat 8 p.val
        | .device => 4
      ann := BitVec.ofNat 8 e.count, table := 0, value := BitVec.ofNat 32 e.detail, ext := 0, check := 0 } := by
  unfold noticeTelegram
  cases e.source <;> rfl

theorem Queued.endsInReset_of_relayed {q : Queued} (h : q.isRelayed = true) : q.endsInReset = false := by
  unfold Queued.endsInReset
  rw [Queued.isRelayed_iff.mp h]

/-- Settles O13, by the four preferences of R14. -/
theorem controlArbiterChooses : Obligations.ControlArbiterChooses := by
  refine ⟨fun s x hx he => ⟨fun pre q post hq hpre ha => ?_, fun hans => ⟨fun pre e post hn hpre hp => ?_, fun hlow =>
    ⟨fun pre q post hq hpre hr => ?_, fun hrel => ⟨fun e rest hn => ?_, fun hn => ?_⟩⟩⟩⟩, noticeTelegram_eq, rfl⟩
  · exact exec_lineFree_control hx he (ControlSide.arbitrate_answer rfl hq hpre ha)
  · exact exec_lineFree_control hx he (ControlSide.arbitrate_high rfl hans hn hpre hp)
  · have hsent := ControlSide.arbitrate_relayed (dev := s.tables.device) (c := s.traffic.ctl.freed) rfl hans hlow hq
      hpre hr
    rw [Queued.endsInReset_of_relayed hr] at hsent
    exact exec_lineFree_control hx he hsent
  · refine exec_lineFree_control hx he ((ControlSide.arbitrate_last (c := s.traffic.ctl.freed) rfl hans hlow hrel).trans ?_)
    rw [ControlSide.sendNotice_first (c := s.traffic.ctl.freed) (npre := []) (npost := rest) hn (by simp) rfl]
    rfl
  · refine exec_lineFree_control hx he ((ControlSide.arbitrate_last (c := s.traffic.ctl.freed) rfl hans hlow hrel).trans ?_)
    rw [ControlSide.sendNotice_none (by simp [ControlSide.freed, hn])]
    rfl

end Sys2Proof.Machine

/-! Commands on arrival: the held command they supersede, the safe direction, the non-safe by its verdict, and what a
judgement reads (chapters 7 to 9). -/

namespace Sys2Proof.Machine

/-! ### The rows GATE_SET, SIGNAL_SET and BREAKER_SET (R114) -/

section arrive

variable {v : View} {tb : Tables} {a : Actuator} {t : Telegram} {s : State} {tr : Traffic} {e : HeldEntry}

theorem exec_commandRow (hf : fate .control t s = .command a) :
    exec (commandRow a t) s = .next
      { s with silence := startedSilence s.tables.device.silenceTime, traffic := s.traffic.arrive s.view a t } := by
  have hc : arrival (commandRow a t) = some (.control, t) := by cases a <;> rfl
  rw [exec_of_fate hc hf]
  rfl

/-- Settles O17. -/
theorem commandsTouchTheirPass : Obligations.CommandsTouchTheirPass := by
  intro a t s hf
  refine ⟨_, exec_commandRow hf, rfl, fun q hq => ⟨rfl, ?_⟩⟩
  obtain ⟨hhistory, hpool, hlines⟩ := arrive_spares (v := s.view) (Ne.symm hq) t s.traffic
  exact ⟨hhistory, hpool, hlines⟩

theorem supersede_of_none (h : ∀ e ∈ tr.pool, e.actuator ≠ a) : tr.supersede tb a = tr := by
  have hnone : tr.pool.find? (HeldEntry.isFor a) = none := by
    refine List.find?_eq_none.mpr fun e he => ?_
    simpa [HeldEntry.isFor] using h e he
  unfold Traffic.supersede
  rw [hnone]

/-- R126: the held entry of an actuator is the one a search finds. -/
theorem find?_held (hnd : (tr.pool.map HeldEntry.actuator).Nodup) (he : e ∈ tr.pool) (ha : e.actuator = a) :
    tr.pool.find? (HeldEntry.isFor a) = some e := by
  obtain ⟨x, hx⟩ := Option.isSome_iff_exists.mp
    (List.find?_isSome.mpr ⟨e, he, by simpa [HeldEntry.isFor] using ha⟩ : (tr.pool.find? (HeldEntry.isFor a)).isSome = true)
  have hxa : x.actuator = a := by simpa [HeldEntry.isFor] using List.find?_some hx
  rw [hx, List.inj_on_of_nodup_map hnd (List.mem_of_find?_eq_some hx) he (hxa.trans ha.symm)]

theorem mem_unpark {x : HeldEntry} (h : x ∈ (tr.unpark a).pool) : x.actuator ≠ a := by
  simpa [HeldEntry.isFor] using (List.mem_filter.mp h).2

theorem supersede_of_held (h : tr.pool.find? (HeldEntry.isFor a) = some e) :
    tr.supersede tb a = (tr.unpark a).answer tb e.requester .superseded .noReason 0 := by
  unfold Traffic.supersede
  rw [h]

/-- R128: nothing is held of the actuator afterwards, and the Action Queue is not touched. -/
theorem supersede_leaves : (∀ x ∈ (tr.supersede tb a).pool, x.actuator ≠ a) ∧ (tr.supersede tb a).actions = tr.actions := by
  cases h : tr.pool.find? (HeldEntry.isFor a) with
  | none =>
    have hno : ∀ x ∈ tr.pool, x.actuator ≠ a := fun x hx => by
      simpa [HeldEntry.isFor] using List.find?_eq_none.mp h x hx
    rw [supersede_of_none hno]
    exact ⟨hno, rfl⟩
  | some e =>
    rw [supersede_of_held h]
    exact ⟨fun x hx => mem_unpark hx, rfl⟩

end arrive

/-- Settles O18: the search of R128 finds the held entry, and finds none in the state that has answered it. -/
theorem heldCommandIsSuperseded : Obligations.HeldCommandIsSuperseded := by
  intro a t s e hf hp he ha
  have hfound := find?_held hp.2 he ha
  have hgone : ∀ x ∈ (Traffic.answer s.tables e.requester .superseded .noReason 0
      { s.traffic with pool := s.traffic.pool.filter fun x => !decide (x.actuator = a) }).pool, x.actuator ≠ a :=
    fun x hx => by simpa using (List.mem_filter.mp hx).2
  have hstays : fate .control t
      { s with
        traffic := Traffic.answer s.tables e.requester .superseded .noReason 0
          { s.traffic with pool := s.traffic.pool.filter fun x => !decide (x.actuator = a) } } = .command a := hf
  rw [exec_commandRow hf, exec_commandRow hstays]
  unfold Traffic.arrive
  rw [supersede_of_held hfound, supersede_of_none hgone]
  rfl

/-! ### The safe direction (R144 to R146) -/

section safe

variable {v : View} {tb : Tables} {a : Actuator} {tr : Traffic} {e : ActionEntry} {cp : PointEntry} {l : List ActionEntry}

theorem cancelWaiting_eq (reason : Reason) : tr.cancelWaiting tb a reason = withoutWaiting tb a reason tr := rfl

theorem removeIssued_eq : tr.removeIssued a = withoutIssued a tr := rfl

theorem answerEntry_eq (ans : Answer) (reason : Reason) (n : Nat) :
    tr.answerEntry tb e ans reason n = entryAnswered tb e ans reason n tr := rfl

theorem issuedEntry_withoutWaiting (reason : Reason) : issuedEntry (withoutWaiting tb a reason tr) a = issuedEntry tr a := by
  rw [← cancelWaiting_eq]
  unfold issuedEntry
  rw [cancelWaiting_actions]
  refine find?_filter_of_imp (fun x hx => ?_) _
  obtain ⟨-, d, sent, tel, hs⟩ := ActionEntry.isIssuedFor_iff.mp hx
  simp [ActionEntry.isWaitingFor, hs]

theorem none_waiting_withoutWaiting (reason : Reason) :
    ∀ x ∈ (withoutWaiting tb a reason tr).actions, x.isWaitingFor a = false := by
  rw [← cancelWaiting_eq, cancelWaiting_actions]
  intro x hx
  simpa using (List.mem_filter.mp hx).2

theorem markIssued_joined {n d : Nat} {tel : Telegram} (h : ∀ x ∈ l, x.isWaitingFor a = false) (he : e.isWaitingFor a = true) :
    markIssued a n d tel (l ++ [e]) = l ++ [{ e with value := n, state := .issued d false tel }] := by
  induction l with
  | nil => simp [markIssued, he]
  | cons x xs ih =>
    rw [List.cons_append, markIssued, if_neg (by simp [h x]), ih fun y hy => h y (List.mem_cons_of_mem _ hy)]
    rfl

/-- R138: an entry that joined an actuator without WAITING entries is the one an issue takes. -/
theorem issue_joined (n : Nat) (hcp : commandPoint v.tables a = some cp) (h : ∀ x ∈ tr.actions, x.isWaitingFor a = false)
    (he : e.isWaitingFor a = true) :
    Traffic.issue v a n { tr with actions := tr.actions ++ [e] } =
      Traffic.placeField v.tables
        { tel := actionTelegram v.tables.device.ownStation cp e n, cls := .action a e.direction }
        { tr with
          actions := tr.actions ++ [{ e with
            value := n
            state := .issued (cp.response.getD 0) false (actionTelegram v.tables.device.ownStation cp e n) }]
          history := noteIssue a e.direction tr.history } := by
  have hfind : (tr.actions ++ [e]).find? (ActionEntry.isWaitingFor a) = some e := find?_first (post := []) h he
  unfold Traffic.issue
  simp only [hcp, hfind, markIssued_joined h he]

/-- The room R146 makes. -/
theorem makeRoom_eq : tr.makeRoom tb =
    if tr.actions.length < 32 then tr
    else match tr.actions.find? fun e => decide (e.state = .waiting) with
      | some e => entryAnswered tb e .cancelled .room 0
          { tr with actions := tr.actions.eraseP fun e => decide (e.state = .waiting) }
      | none => tr := rfl

theorem issueSafe_eq (origin : Option Requester) (carried : Carried) (hcp : commandPoint v.tables a = some cp)
    (h : ∀ x ∈ tr.actions, x.isWaitingFor a = false) :
    tr.issueSafe v a origin carried =
      let roomy := tr.makeRoom v.tables
      let entry : ActionEntry :=
        { actuator := a, direction := .safe, value := 0
          origin := match origin with
            | some r => .station r
            | none => .originated roomy.tagCounter
          carried := carried, state := .waiting }
      let tel := actionTelegram v.tables.device.ownStation cp entry 0
      Traffic.placeField v.tables { tel := tel, cls := .action a .safe }
        { roomy with
          actions := roomy.actions ++ [{ entry with state := .issued (cp.response.getD 0) false tel }]
          tagCounter := if origin = none then roomy.tagCounter + 1 else roomy.tagCounter
          history := noteIssue a .safe roomy.history } := by
  have hroomy : ∀ x ∈ (tr.makeRoom v.tables).actions, x.isWaitingFor a = false := fun x hx =>
    h x ((makeRoom_sublist tr).subset hx)
  unfold Traffic.issueSafe
  cases origin with
  | none =>
    exact issue_joined (tr := { tr.makeRoom v.tables with tagCounter := (tr.makeRoom v.tables).tagCounter + 1 }) 0 hcp hroomy
      (by simp [ActionEntry.isWaitingFor])
  | some r =>
    exact issue_joined (tr := tr.makeRoom v.tables) 0 hcp hroomy (by simp [ActionEntry.isWaitingFor])

theorem setStanding_false_eq_map : setStanding a false l = l.map fun x =>
    if x.isIssuedFor a then
      { x with state := match x.state with
          | .issued d _ tel => .issued d false tel
          | .waiting => .waiting }
    else x := by
  refine List.map_congr_left fun ⟨b, _, _, _, _, state⟩ _ => ?_
  cases state with
  | waiting => rfl
  | issued d sent tel => by_cases h : b = a <;> simp [ActionEntry.isIssuedFor, ActionEntry.withStanding, h]

theorem attach_queued {d : Nat} {tel : Telegram} (h : e.state = .issued d false tel) : tr.attach v a e = tr := by
  unfold Traffic.attach
  rw [h]

theorem attach_sent {d : Nat} {tel : Telegram} (h : e.state = .issued d true tel) :
    tr.attach v a e = Traffic.placeField v.tables { tel := tel, cls := .action a e.direction }
      { tr with actions := setStanding a false tr.actions } := by
  unfold Traffic.attach
  rw [h]

theorem takeSafe_of_none (origin : Option Requester) (carried : Carried) (h : issuedEntry tr a = none) :
    tr.takeSafe v a origin carried = (withoutWaiting v.tables a .safePreempt tr).issueSafe v a origin carried := by
  have hcleared := (issuedEntry_withoutWaiting (tb := v.tables) (a := a) (tr := tr) .safePreempt).trans h
  unfold Traffic.takeSafe
  simp only [cancelWaiting_eq, hcleared]

theorem takeSafe_of_nonSafe (origin : Option Requester) (carried : Carried) (h : issuedEntry tr a = some e)
    (hd : e.direction = .nonSafe) :
    tr.takeSafe v a origin carried =
      (withoutIssued a (entryAnswered v.tables e .cancelled .safePreempt 0
        (withoutWaiting v.tables a .safePreempt tr))).issueSafe v a origin carried := by
  have hcleared := (issuedEntry_withoutWaiting (tb := v.tables) (a := a) (tr := tr) .safePreempt).trans h
  unfold Traffic.takeSafe
  simp only [cancelWaiting_eq, hcleared, hd]
  rfl

theorem takeSafe_of_safe (origin : Option Requester) (carried : Carried) (h : issuedEntry tr a = some e)
    (hd : e.direction = .safe) :
    tr.takeSafe v a origin carried = (withoutWaiting v.tables a .safePreempt tr).attach v a e := by
  have hcleared := (issuedEntry_withoutWaiting (tb := v.tables) (a := a) (tr := tr) .safePreempt).trans h
  unfold Traffic.takeSafe
  simp only [cancelWaiting_eq, hcleared, hd]

theorem none_waiting_withoutIssued (h : ∀ x ∈ tr.actions, x.isWaitingFor a = false) :
    ∀ x ∈ (withoutIssued a tr).actions, x.isWaitingFor a = false :=
  fun x hx => h x (List.mem_of_mem_eraseP hx)

theorem commandDirection_safe {t : Telegram} (h : t.value.toInt ≤ 0) : commandDirection t = .safe :=
  if_neg (by omega)

theorem commandDirection_nonSafe {t : Telegram} (h : 0 < t.value.toInt) : commandDirection t = .nonSafe := if_pos h

/-- R26: the actuator of a command has a command point. -/
theorem hasCommandPoint_of_fate {t : Telegram} {s : State} (hp : PointsSound s.tables) (hf : fate .control t s = .command a) :
    hasCommandPoint s.tables a = true := by
  obtain ⟨-, h, hlookup, hact, -⟩ := fate_command hf
  exact hasCommandPoint_of_commanded hp ⟨_, _, h, hlookup, hact⟩

end safe

/-- Settles O19: the order of the line; the row; and R144, R145 by what is ISSUED. -/
theorem safeCommandIsTaken : Obligations.SafeCommandIsTaken := by
  refine ⟨fun a t s hf hv hs => ?_, fun a t s hf hv hpool => ?_, fun v tr a origin carried cp hcp => ⟨fun h => ?_, fun e h =>
    ⟨fun hd => ?_, fun hd d sent tel hstate => ⟨fun hsent => ?_, fun hsent => ?_⟩⟩⟩⟩
  · obtain ⟨hpoints, -, -, hordered⟩ := hs
    obtain ⟨hfree, hactions⟩ := supersede_leaves (tb := s.view.tables) (a := a) (tr := s.traffic)
    have hshape : lineShaped a (lineOf (s.traffic.supersede s.view.tables a) a) := by
      unfold lineOf
      rw [hactions]
      exact lineShaped_of_ordered hordered a
    obtain ⟨e, hline, hi, hd⟩ := takeSafe_orderedSafe (v := s.view) (some (requesterOf t)) (carriedOf t)
      (hasCommandPoint_of_fate hpoints hf) hshape
    have harrive : s.traffic.arrive s.view a t
        = (s.traffic.supersede s.view.tables a).takeSafe s.view a (some (requesterOf t)) (carriedOf t) := by
      unfold Traffic.arrive
      rw [commandDirection_safe hv]
    refine ⟨_, e, exec_commandRow hf, ?_, hi, hd, ?_⟩
    · simpa only [harrive] using hline
    · simpa only [harrive, takeSafe_pool] using hfree
  · rw [exec_commandRow hf]
    unfold Traffic.arrive
    rw [supersede_of_none hpool, commandDirection_safe hv]
    rfl
  · exact (takeSafe_of_none origin carried h).trans (issueSafe_eq origin carried hcp (none_waiting_withoutWaiting _))
  · refine (takeSafe_of_nonSafe origin carried h hd).trans
      (issueSafe_eq origin carried hcp (none_waiting_withoutIssued ?_))
    rw [← answerEntry_eq, Traffic.answerEntry_actions]
    exact none_waiting_withoutWaiting _
  · rw [takeSafe_of_safe origin carried h hd, attach_queued (hsent ▸ hstate)]
  · rw [takeSafe_of_safe origin carried h hd, attach_sent (hsent ▸ hstate), hd, setStanding_false_eq_map] <;> rfl

end Sys2Proof.Machine

/-! A non-safe command by its verdict, and what a judgement reads (R3, R4, R25, R34, R96, R105, R113 to R119, R127, R137,
R138). -/

namespace Sys2Proof.Machine

/-! ### Admission (R137, R138) -/

section admission

variable {v : View} {tb : Tables} {a : Actuator} {tr : Traffic} {n : Nat} {r : Requester} {c : Carried} {t : Telegram}

/-- The entry of an admitted command. -/
def admittedEntry (a : Actuator) (n : Nat) (r : Requester) (c : Carried) : ActionEntry :=
  { actuator := a, direction := .nonSafe, value := n, origin := .station r, carried := c, state := .waiting }

theorem enlist_lineFull (h : 4 ≤ (lineOf tr a).length) : tr.enlist v a n r c = (tr, some .actuatorBusy) := if_pos h

theorem enlist_queueFull (h : (lineOf tr a).length < 4) (hf : 32 ≤ tr.actions.length) :
    tr.enlist v a n r c = (tr, some .queueFull) :=
  (if_neg (Nat.not_le.mpr h)).trans (if_pos hf)

/-- R137: with room in line and queue the command is taken, WAITING behind others or ISSUED at once. -/
theorem enlist_taken (h : (lineOf tr a).length < 4) (hf : tr.actions.length < 32) :
    ∃ taken, tr.enlist v a n r c = (taken, none) ∧ entryTaken v.tables tr (admittedEntry a n r c) taken := by
  have hroom : tr.enlist v a n r c =
      if (lineOf tr a).isEmpty = true then
        (Traffic.issue v a n { tr with actions := tr.actions ++ [admittedEntry a n r c] }, none)
      else ({ tr with actions := tr.actions ++ [admittedEntry a n r c] }, none) :=
    (if_neg (Nat.not_le.mpr h)).trans (if_neg (Nat.not_le.mpr hf))
  rw [hroom]
  by_cases he : lineOf tr a = []
  · rw [if_pos (List.isEmpty_iff.mpr he)]
    refine ⟨_, rfl, fun hne => absurd he hne, fun _ cp hcp => issue_joined n hcp (fun x hx => ?_) ?_⟩
    · refine ActionEntry.isWaitingFor_of_ne fun hxa => ?_
      have hmem : x ∈ lineOf tr a := mem_lineOf.mpr ⟨hx, hxa⟩
      rw [he] at hmem
      cases hmem
    · simp [admittedEntry, ActionEntry.isWaitingFor]
  · rw [if_neg (by simpa using he)]
    exact ⟨_, rfl, fun _ => rfl, fun hnil => absurd hnil he⟩

theorem arriveNonSafe_refused {vd : Verdict} (hvd : arrivalVerdict v tr a (requestedValue t.value) = vd)
    (h : vd.severity = .refuse) :
    tr.arriveNonSafe v a t = tr.answer v.tables (requesterOf t) .refused vd.reason 0 := by
  unfold Traffic.arriveNonSafe
  simp only [hvd, h]

theorem arriveNonSafe_held {vd : Verdict} (hvd : arrivalVerdict v tr a (requestedValue t.value) = vd)
    (h : vd.severity = .hold) : tr.arriveNonSafe v a t = tr.park v a t vd.reason := by
  unfold Traffic.arriveNonSafe
  simp only [hvd, h]

theorem park_room {reason : Reason} (h : tr.pool.length < 16) : tr.park v a t reason =
    Traffic.answer v.tables (requesterOf t) .held reason 0
      { tr with pool := tr.pool ++
          [{ actuator := a, requester := requesterOf t, value := t.value, carried := carriedOf t, timer := holdTime v a
             reason := reason }] } := if_pos h

theorem park_full {reason : Reason} (h : 16 ≤ tr.pool.length) :
    tr.park v a t reason = tr.answer v.tables (requesterOf t) .refused .holdFull 0 := if_neg (Nat.not_lt.mpr h)

/-- R119, R137: an allowed command that is turned away is answered REFUSED. -/
theorem arriveNonSafe_turned {vd : Verdict} {reason : Reason} (hvd : arrivalVerdict v tr a (requestedValue t.value) = vd)
    (h : vd.severity = .pass ∨ vd.severity = .clamp)
    (he : tr.enlist v a vd.value (requesterOf t) (carriedOf t) = (tr, some reason)) :
    tr.arriveNonSafe v a t = tr.answer v.tables (requesterOf t) .refused reason 0 := by
  unfold Traffic.arriveNonSafe
  obtain h | h := h <;> simp only [hvd, h, he]

/-- R119: an allowed command that is taken is answered CLAMPED after a CLAMP. -/
theorem arriveNonSafe_taken {vd : Verdict} {taken : Traffic}
    (hvd : arrivalVerdict v tr a (requestedValue t.value) = vd) (h : vd.severity = .pass ∨ vd.severity = .clamp)
    (he : tr.enlist v a vd.value (requesterOf t) (carriedOf t) = (taken, none)) :
    tr.arriveNonSafe v a t =
      if vd.severity = .clamp then taken.answer v.tables (requesterOf t) .clamped vd.reason vd.value else taken := by
  unfold Traffic.arriveNonSafe
  obtain h | h := h <;> simp [hvd, h, he]

theorem arrive_nonSafe (hv : 0 < t.value.toInt) (hpool : ∀ e ∈ tr.pool, e.actuator ≠ a) :
    tr.arrive v a t = tr.arriveNonSafe v a t := by
  unfold Traffic.arrive
  rw [supersede_of_none hpool, commandDirection_nonSafe hv]

theorem holdTime_eq : holdTime v a =
    (match a with
      | .gate _ _ => (v.tables.interlock.get a.pass).gateOpen
      | .signal _ _ => (v.tables.interlock.get a.pass).signalOn
      | .breaker _ _ => (v.tables.interlock.get a.pass).breakerStart).holdTime := by
  cases a <;> rfl

theorem actionTelegram_station {own : Byte} {cp : PointEntry} {e : ActionEntry} (h : e.origin = .station r) :
    actionTelegram own cp e n = withCheck
      { dest := cp.station.getD 0, src := r.src, kind := kindCMD, point := cp.point.getD 0, tag := r.tag
        qual := e.carried.qual, ann := e.carried.ann, table := e.carried.table, value := BitVec.ofNat 32 n
        ext := e.carried.ext, check := 0 } := by
  unfold actionTelegram
  rw [h]

theorem actionTelegram_originated {own tag : Byte} {cp : PointEntry} {e : ActionEntry} (h : e.origin = .originated tag) :
    actionTelegram own cp e n = withCheck
      { dest := cp.station.getD 0, src := own, kind := kindCMD, point := cp.point.getD 0, tag := tag
        qual := e.carried.qual, ann := e.carried.ann, table := e.carried.table, value := BitVec.ofNat 32 n
        ext := e.carried.ext, check := 0 } := by
  unfold actionTelegram
  rw [h]

end admission

/-- Settles O20: the verdict at arrival and the room for it; the bytes and codes of what is sent. -/
theorem nonSafeCommandFollowsItsVerdict : Obligations.NonSafeCommandFollowsItsVerdict := by
  refine ⟨fun a t s hf hv hpool => ?_, fun v tr a r => ⟨?_, fun hs hz => if_pos ⟨hs, holdTime_eq.trans hz⟩,
      fun h => if_neg fun hn => h.elim (fun h => h hn.1) fun h => h (holdTime_eq.symm.trans hn.2)⟩,
    fun tb r ans reason n tr => rfl, ⟨rfl, rfl⟩, fun own station point cp e n hs hp => ⟨fun r h => ?_, fun tag h => ?_⟩,
    fun t => ⟨checkHolds_withCheck t, rfl⟩⟩
  · rw [exec_commandRow hf, arrive_nonSafe hv hpool]
    refine ⟨fun h => ?_, fun h => ⟨fun hroom => ?_, fun hfull => ?_⟩, fun h => ⟨fun hl => ?_, fun hl hq => ?_, fun hl hq => ?_⟩⟩
    · rw [arriveNonSafe_refused rfl h]
      rfl
    · rw [arriveNonSafe_held rfl h, park_room hroom]
      rfl
    · rw [arriveNonSafe_held rfl h, park_full hfull]
      rfl
    · rw [arriveNonSafe_turned rfl h (enlist_lineFull hl)]
      rfl
    · rw [arriveNonSafe_turned rfl h (enlist_queueFull hl hq)]
      rfl
    · obtain ⟨taken, he, htaken⟩ := enlist_taken (v := s.view) (a := a) (r := requesterOf t) (c := carriedOf t) hl hq
      refine ⟨taken, ?_, htaken⟩
      rw [arriveNonSafe_taken rfl h he]
      rfl
  · cases a <;> rfl
  · rw [actionTelegram_station h, hs, hp]
    rfl
  · rw [actionTelegram_originated h, hs, hp]
    rfl

/-! ### What a judgement reads -/

section readings

variable {v : View} {tb : Tables} {a : Actuator} {tr : Traffic} {d : Direction} {p : PassId} {c : ChuteId} {i : Fin 128}

theorem interlockCell_eq : interlockCell v a =
    match interlockColumn (v.passes.get a.pass) with
    | none => none
    | some col => some (((v.tables.interlock.get a.pass).row a.row).cell col) := by
  unfold interlockCell
  cases interlockColumn (v.passes.get a.pass) <;> rfl

/-- R23: the command point of an actuator is the one entry that commands it. -/
theorem commandPoint_eq_some (hp : PointsSound tb) (h : (tb.points.get i).commands a) :
    commandPoint tb a = some (tb.points.get i) := by
  have hlevel : a.commandRole.isPassLevel = false := by cases a <;> rfl
  obtain ⟨hv, hr, hpass, ho⟩ := h
  refine find?_points_eq (by simp [hv, hr, hpass, ho]) fun j hj => ?_
  obtain ⟨hjv, hjr, hjp, hjo⟩ := of_decide_eq_true hj
  by_contra hne
  have hclash := hp.2 j i hne hjv hv
  simp [pointsClash, hjr, hr, hjp, hpass, hlevel, ho, hjo.resolve_left (by simp [hlevel])] at hclash

theorem commandPoint_eq_none (h : ∀ i : Fin 128, ¬(tb.points.get i).commands a) : commandPoint tb a = none := by
  have hno : hasCommandPoint tb a ≠ true := fun hc => (hasCommandPoint_iff.mp hc).elim h
  exact Option.not_isSome_iff_eq_none.mp hno

theorem commands_iff {e : PointEntry} : e.commands a ↔ e.valid = true ∧ e.role = some a.commandRole
    ∧ e.pass = some a.pass ∧ ∃ o, e.object = some o ∧ o.val = a.object.val := by
  unfold PointEntry.commands
  refine and_congr_right fun _ => and_congr_right fun _ => and_congr_right fun _ => ?_
  exact ⟨fun h => ⟨_, h, rfl⟩, fun ⟨o, h, ho⟩ => h.trans (congrArg some (Fin.ext ho))⟩

theorem hasNonSafe_iff : hasNonSafe tr a = true ↔ ∃ e ∈ tr.actions, e.actuator = a ∧ e.direction = .nonSafe := by
  simp [hasNonSafe]

theorem hasIssued_iff : hasIssued tr a d = true ↔ ∃ e ∈ tr.actions, e.isIssuedFor a = true ∧ e.direction = d := by
  simp [hasIssued]

theorem openAboveTolerance_iff : openAboveTolerance v p c = true ↔
    ∃ g, ((v.passes.get p).chutes.get c).gate = some g ∧ gateTolerance v.tables p c < g := by
  unfold openAboveTolerance
  cases ((v.passes.get p).chutes.get c).gate <;> simp

/-- R117: the bound a CLAMP cell sets. -/
theorem forwardedOpening_clamp {n r : Nat} (h : interlockCell v a = some (.clamp n)) :
    forwardedOpening v a r = min (min r n) (min (openingLimit v a.pass) 100) := by
  unfold forwardedOpening
  rw [h, Nat.min_assoc]

theorem forwardedOpening_unclamped {r : Nat} (h : ∀ n, interlockCell v a ≠ some (.clamp n)) :
    forwardedOpening v a r = min r (min (openingLimit v a.pass) 100) := by
  unfold forwardedOpening
  split
  · exact absurd ‹_› (h _)
  · rfl

theorem judge_clamp_reason {n : Nat} (h : (judge v tr a n).severity = .clamp) :
    (judge v tr a n).reason = clampReason v a (judge v tr a n).value := by
  obtain ⟨h, hh, hc⟩ := judge_clamp_iff.mp h
  rw [judge_of_cut h hh hc]

theorem judge_not_clamp {n : Nat} (h : ¬∃ p c, a = .gate p c) : (judge v tr a n).severity ≠ .clamp :=
  fun hs => h (judge_clamp_iff.mp hs).2.2.1

end readings

/-- Settles O22, reading by reading. -/
theorem interlockReadings : Obligations.InterlockReadings := by
  refine ⟨fun v a => ?_, ⟨rfl, rfl, rfl, fun q => rfl, fun c => ⟨fun h => ?_, fun head rest h => ?_⟩, fun m => ?_⟩,
    fun v p c => ⟨rfl, fun h => ?_, fun cp n h hn => ?_, openAboveTolerance_iff⟩, fun tb a hp => ?_,
    fun tr a d => ⟨hasNonSafe_iff, hasIssued_iff⟩, fun v tr p c r => ⟨fun n => forwardedOpening_clamp, forwardedOpening_unclamped,
      judge_clamp_reason⟩, fun v tr p n r => ⟨rfl, rfl, judge_not_clamp (by simp), judge_not_clamp (by simp)⟩, fun x => ?_⟩
  · rw [interlockCell_eq]
    cases interlockColumn (v.passes.get a.pass) with
    | none => rfl
    | some col => cases a <;> cases col <;> rfl
  · unfold headWetness
    rw [h]
  · unfold headWetness
    rw [h]
  · cases m <;> simp [PassState.isLive, PassState.inService]
  · unfold gateTolerance
    rw [h]
    rfl
  · unfold gateTolerance
    rw [h, Option.bind_some, hn]
    rfl
  · have hgives : ∀ e : PointEntry, e.commands a ↔ e.valid = true ∧ e.role = some a.commandRole
        ∧ e.pass = some a.pass ∧ ∃ o, e.object = some o ∧ o.val = a.object.val := fun e => commands_iff
    have found : (∀ i : Fin 128, (tb.points.get i).commands a → commandPoint tb a = some (tb.points.get i))
        ∧ ((∀ i : Fin 128, ¬(tb.points.get i).commands a) → commandPoint tb a = none)
        ∧ (hasCommandPoint tb a = true ↔ ∃ i : Fin 128, (tb.points.get i).commands a) :=
      ⟨fun i => commandPoint_eq_some hp, commandPoint_eq_none, hasCommandPoint_iff⟩
    simp only [hgives] at found
    cases a <;> exact ⟨rfl, rfl, rfl, found⟩
  · unfold interlockColumn conditionCode
    cases x.mode <;> simp

end Sys2Proof.Machine

/-! Start-up (R162, R175, R176), and the timers that run while a DEVICE-RESET is pending (R17). -/

namespace Sys2Proof.Machine

/-! ### What start-up reads -/

section base

variable {s t u : State} {p : PassId} {cause : ResetCause}

/-- The part's tables, and the model's own fields, stay. -/
def SameBase (s u : State) : Prop := u.tables = s.tables ∧ u.draws = s.draws ∧ u.pending = s.pending

theorem SameBase.refl' : SameBase s s := ⟨rfl, rfl, rfl⟩

theorem SameBase.trans (h : SameBase s t) (h' : SameBase t u) : SameBase s u :=
  ⟨h'.1.trans h.1, h'.2.1.trans h.2.1, h'.2.2.trans h.2.2⟩

theorem Within.sameBase (h : Within p s u) : SameBase s u := by
  obtain ⟨h, -⟩ := h
  rw [h]
  exact ⟨rfl, rfl, rfl⟩

theorem SameBase.foldl {α : Type} {f : State → α → State} (l : List α) (hf : ∀ x ∈ l, ∀ s, SameBase s (f s x)) :
    ∀ s, SameBase s (l.foldl f s) := by
  induction l with
  | nil => exact fun _ => .refl'
  | cons x xs ih => exact fun s => (hf x List.mem_cons_self s).trans (ih (fun y hy => hf y (List.mem_cons_of_mem _ hy)) _)

/-- R176: start-up reads the stored tables alone. -/
theorem startUp_congr (h : SameBase s u) : u.startUp cause = s.startUp cause := by
  have hrest : u.restarted cause = s.restarted cause := by
    unfold State.restarted
    rw [h.1, h.2.1, h.2.2]
  unfold State.startUp
  rw [hrest]

end base

/-! ### The actuators of start-up -/

section actuators

variable {tb : Tables} {v : View} {a b : Actuator} {tr : Traffic} {L : List Actuator}

theorem startActuators_eq : startActuators tb = allPasses.flatMap fun p =>
    if (tb.params.get p).configured then (safeStateOrder p).filter (hasCommandPoint tb) else [] := rfl

theorem mem_startActuators : a ∈ startActuators tb ↔ (tb.params.get a.pass).configured = true ∧ hasCommandPoint tb a = true := by
  have hall : ∀ p : PassId, p ∈ allPasses := fun p => by fin_cases p <;> simp [allPasses]
  rw [startActuators_eq, List.mem_flatMap]
  constructor
  · rintro ⟨p, -, hp⟩
    split at hp
    · rename_i hc
      obtain ⟨hm, hcp⟩ := List.mem_filter.mp hp
      rw [mem_safeStateOrder hm]
      exact ⟨hc, hcp⟩
    · cases hp
  · rintro ⟨hc, hcp⟩
    refine ⟨a.pass, hall _, ?_⟩
    rw [if_pos hc]
    exact List.mem_filter.mpr ⟨mem_safeStateOrder_iff.mpr rfl, hcp⟩

theorem startActuators_sublist : (startActuators tb).Sublist allActuators := by
  rw [startActuators_eq]
  unfold allActuators
  have hsub : ∀ l : List PassId, (l.flatMap fun p =>
      if (tb.params.get p).configured then (safeStateOrder p).filter (hasCommandPoint tb) else []).Sublist
        (l.flatMap safeStateOrder) := by
    intro l
    induction l with
    | nil => exact .refl _
    | cons p ps ih =>
      rw [List.flatMap_cons, List.flatMap_cons]
      refine List.Sublist.append ?_ ih
      split
      · exact List.filter_sublist
      · exact List.nil_sublist _
  exact hsub _

theorem startActuators_nodup : (startActuators tb).Nodup :=
  startActuators_sublist.nodup (by decide)

theorem startActuators_length : (startActuators tb).length ≤ 32 := startActuators_sublist.length_le

/-! ### The traffic of start-up (R176 step 4) -/

/-- The queued telegrams of the safe commands. -/
def startQueued (tb : Tables) (L : List Actuator) : List Queued :=
  L.zipIdx.map fun x => { tel := startTelegram tb x.2 x.1, cls := .action x.1 .safe }

/-- The traffic after the safe commands of the actuators `L` were originated in cleared traffic. -/
def startTraffic (tb : Tables) (L : List Actuator) : Traffic :=
  { ctl := clearedTraffic.ctl
    field :=
      { queue := (startQueued tb L).tail, overrun := false
        sending := (startQueued tb L).head?.map fun q => { tel := q.tel, endsInReset := false } }
    pool := []
    actions := L.zipIdx.map fun x => startEntry tb x.2 x.1
    tagCounter := BitVec.ofNat 8 L.length
    history := L.foldl (fun h a => noteIssue a .safe h) clearedTraffic.history }

theorem mem_startTraffic {e : ActionEntry} (h : e ∈ (startTraffic tb L).actions) :
    e.actuator ∈ L ∧ e.direction = .safe := by
  obtain ⟨x, hx, rfl⟩ := List.mem_map.mp h
  exact ⟨List.fst_mem_of_mem_zipIdx hx, rfl⟩

theorem issuedEntry_startTraffic (ha : a ∉ L) : issuedEntry (startTraffic tb L) a = none := by
  refine List.find?_eq_none.mpr fun e he => ?_
  rw [ActionEntry.isIssuedFor_of_ne fun (h : e.actuator = a) => ha (h ▸ (mem_startTraffic he).1)]
  decide

theorem none_waiting_startTraffic (ha : a ∉ L) : ∀ x ∈ (startTraffic tb L).actions, x.isWaitingFor a = false :=
  fun _ he => ActionEntry.isWaitingFor_of_ne fun h => ha (h ▸ (mem_startTraffic he).1)

theorem withoutWaiting_of_none (reason : Reason) (h : ∀ x ∈ tr.actions, x.isWaitingFor a = false) :
    withoutWaiting tb a reason tr = tr := by
  have hnone : (tr.actions.filter fun e => e.isWaitingFor a) = [] := List.filter_eq_nil_iff.mpr fun x hx => by simp [h x hx]
  have hall : (tr.actions.filter fun e => !e.isWaitingFor a) = tr.actions := List.filter_eq_self.mpr fun x hx => by simp [h x hx]
  unfold withoutWaiting
  rw [hnone, hall]
  rfl

theorem startTelegram_eq {cp : PointEntry} (hcp : commandPoint tb a = some cp) {n : Nat} {e : ActionEntry}
    (ho : e.origin = .originated (BitVec.ofNat 8 n)) (hc : e.carried = noCarried) :
    actionTelegram tb.device.ownStation cp e 0 = startTelegram tb n a := by
  rw [actionTelegram_originated ho, hc]
  unfold startTelegram
  rw [hcp]
  rfl

/-- R13: the first telegram finds the line idle, the others wait behind it. -/
theorem startTraffic_concat (hcp : hasCommandPoint v.tables a = true) (ha : a ∉ L) (hl : L.length < 32) :
    (startTraffic v.tables L).takeSafe v a none noCarried = startTraffic v.tables (L ++ [a]) := by
  obtain ⟨cp, hcp⟩ := Option.isSome_iff_exists.mp hcp
  have hwait := none_waiting_startTraffic (tb := v.tables) ha
  have hlen : (startTraffic v.tables L).actions.length < 32 := by simpa [startTraffic] using hl
  have hroomy : (startTraffic v.tables L).makeRoom v.tables = startTraffic v.tables L := by
    rw [makeRoom_eq, if_pos hlen]
  have hissued := takeSafe_of_none (v := v) none noCarried (issuedEntry_startTraffic (tb := v.tables) ha)
  rw [withoutWaiting_of_none _ hwait, issueSafe_eq none noCarried hcp hwait, hroomy] at hissued
  simp only [if_true] at hissued
  rw [startTelegram_eq (n := L.length) hcp rfl rfl] at hissued
  rw [hissued]
  have hzip : (L ++ [a]).zipIdx = L.zipIdx ++ [(a, L.length)] := by simp [List.zipIdx_append]
  have hcounter : BitVec.ofNat 8 L.length + 1 = BitVec.ofNat 8 (L ++ [a]).length := by
    rw [List.length_append, List.length_singleton]
    exact (BitVec.ofNat_add ..).symm
  have hresponse : cp.response.getD 0 = ((commandPoint v.tables a).bind PointEntry.response).getD 0 := by rw [hcp]; rfl
  cases L with
  | nil =>
    rw [Traffic.placeField_idle rfl rfl]
    simp only [startTraffic, startQueued, hresponse]
    simp [noteSent, setStanding, ActionEntry.isIssuedFor, ActionEntry.withStanding, startEntry, noCarried]
  | cons b bs =>
    rw [Traffic.placeField_room_busy (x := { tel := startTelegram v.tables 0 b, endsInReset := false })
      (by simp [startTraffic, startQueued] at hl ⊢; omega) rfl]
    simp only [startTraffic, startQueued, hzip, hcounter, hresponse]
    simp [startEntry, List.zipIdx_cons]

theorem foldl_takeSafe_eq (hcp : ∀ a ∈ L, hasCommandPoint v.tables a = true) (hnd : L.Nodup) (hl : L.length ≤ 32) :
    L.foldl (fun tr a => tr.takeSafe v a none noCarried) clearedTraffic = startTraffic v.tables L := by
  induction L using List.reverseRecOn with
  | nil => rfl
  | append_singleton l a ih =>
    rw [List.length_append, List.length_singleton] at hl
    obtain ⟨hnd, -, hdisj⟩ := List.nodup_append.mp hnd
    rw [List.foldl_concat, ih (fun b hb => hcp b (List.mem_append_left _ hb)) hnd (by omega)]
    exact startTraffic_concat (hcp a (by simp)) (fun ha => hdisj a ha a (by simp) rfl) (by omega)

theorem foldl_originate_eq (l : List Actuator) : ∀ tr : Traffic, l.foldl (fun t a => t.originate v a) tr
    = (l.filter (hasCommandPoint v.tables)).foldl (fun tr a => tr.takeSafe v a none noCarried) tr := by
  induction l with
  | nil => exact fun _ => rfl
  | cons a as ih =>
    intro tr
    rw [List.foldl_cons, ih, List.filter_cons, Traffic.originate]
    split <;> rfl

end actuators

/-! ### The notices of start-up (R162, R176 steps 5 and 6) -/

section notices

variable {tb : Tables} {told : List NoticeEntry} {src : NoticeSource} {cls : NoticeClass} {n : Nat}

/-- The Control Port after the notices `told` were raised on its idle line: the first is on the line. -/
def toldSide (tb : Tables) (told : List NoticeEntry) : ControlSide :=
  { port :=
      { queue := [], overrun := false
        sending := told.head?.map fun e => { tel := noticeTelegram tb.device e, endsInReset := false } }
    notices := told.tail }

theorem toldSide_raise (h : ∀ e ∈ told, ¬(e.source = src ∧ e.cls = cls)) :
    (toldSide tb told).raise tb src cls n
      = toldSide tb (told ++ if (tb.notices.get cls).enabled then [madeNotice tb src cls 1 n] else []) := by
  unfold ControlSide.raise
  cases hen : (tb.notices.get cls).enabled with
  | false =>
    rw [ControlSide.raiseMany_disabled hen]
    simp
  | true =>
    cases told with
    | nil => exact ControlSide.raiseMany_idle hen rfl rfl rfl
    | cons e es =>
      refine (ControlSide.raiseMany_busy hen (x := { tel := noticeTelegram tb.device e, endsInReset := false }) rfl
        fun y hy => h y (List.mem_cons_of_mem _ hy)).trans ?_
      simp [toldSide]

/-- Raises of one class from several passes, each once. -/
theorem toldSide_foldl (l : List PassId) : ∀ told : List NoticeEntry, l.Nodup →
    (∀ p ∈ l, ∀ e ∈ told, ¬(e.source = .pass p ∧ e.cls = cls)) →
    l.foldl (fun c p => c.raise tb (.pass p) cls n) (toldSide tb told)
      = toldSide tb (told ++ if (tb.notices.get cls).enabled then l.map fun p => madeNotice tb (.pass p) cls 1 n else []) := by
  induction l with
  | nil => intro told _ _; simp
  | cons p ps ih =>
    intro told hnd h
    rw [List.foldl_cons, toldSide_raise (h p List.mem_cons_self), ih]
    · rw [List.append_assoc]
      congr 2
      split <;> rfl
    · exact (List.nodup_cons.mp hnd).2
    · intro q hq e he
      rcases List.mem_append.mp he with he | he
      · exact h q (List.mem_cons_of_mem _ hq) e he
      · split at he
        · obtain rfl := List.mem_singleton.mp he
          rintro ⟨hs, -⟩
          simp only [madeNotice, NoticeSource.pass.injEq] at hs
          exact (List.nodup_cons.mp hnd).1 (hs ▸ hq)
        · cases he

end notices

/-! ### The steps of start-up together -/

section startUp

variable {s : State} {cause : ResetCause} {v : View} {tr : Traffic} {p : PassId}

/-- R162: the pass comes back in ALERT. -/
def returnsAlert (tb : Tables) (p : PassId) : Bool := (tb.params.get p).configured && !tb.marks.get p

theorem restartedPass_mode (configured mark : Bool) : (restartedPass configured mark).mode =
    if configured then if mark then .isolated else .alert else .unconfigured := by
  cases configured <;> cases mark <;> rfl

theorem startSafe_restarted : State.startSafe { s.restarted cause with traffic := tr } p =
    { s.restarted cause with
      traffic := (if (s.params p).configured then (safeStateOrder p).filter (hasCommandPoint s.tables) else []).foldl
        (fun tr a => tr.takeSafe (s.restarted cause).view a none noCarried) tr } := by
  have hmode : (State.pass { s.restarted cause with traffic := tr } p).mode
      = if (s.params p).configured then if s.tables.marks.get p then .isolated else .alert else .unconfigured :=
    (congrArg Pass.mode (restarted_pass cause s p)).trans (restartedPass_mode _ _)
  unfold State.startSafe
  rw [hmode]
  cases hc : (s.params p).configured with
  | false => rfl
  | true =>
    rw [if_neg (by cases s.tables.marks.get p <;> simp)]
    exact congrArg (fun tr => { s.restarted cause with traffic := tr }) (foldl_originate_eq (safeStateOrder p) tr)

theorem foldl_startSafe (l : List PassId) : ∀ tr : Traffic, l.foldl State.startSafe { s.restarted cause with traffic := tr } =
    { s.restarted cause with
      traffic := (l.flatMap fun p =>
        if (s.params p).configured then (safeStateOrder p).filter (hasCommandPoint s.tables) else []).foldl
        (fun tr a => tr.takeSafe (s.restarted cause).view a none noCarried) tr } := by
  induction l with
  | nil => exact fun _ => rfl
  | cons p ps ih =>
    intro tr
    rw [List.foldl_cons, startSafe_restarted, ih, List.flatMap_cons, List.foldl_append]

theorem startSafe_all : allPasses.foldl State.startSafe (s.restarted cause) =
    { s.restarted cause with traffic := startTraffic s.tables (startActuators s.tables) } := by
  refine (foldl_startSafe allPasses clearedTraffic).trans ?_
  have hfold := foldl_takeSafe_eq (v := (s.restarted cause).view) (L := startActuators s.tables)
    (fun a ha => (mem_startActuators.mp ha).2) startActuators_nodup startActuators_length
  exact congrArg (fun tr => { s.restarted cause with traffic := tr }) hfold

/-- R124: an actuator of which nothing has been heard, and with safe entries alone, is not engaged. -/
theorem isEngaged_restarted {a : Actuator} (h : ∀ e ∈ tr.actions, e.direction = .safe) :
    isEngaged (s.restarted cause).view tr a = false := by
  have hissued : hasIssued tr a .nonSafe = false := by
    rw [← Bool.not_eq_true, hasIssued_iff]
    rintro ⟨e, he, -, hd⟩
    rw [h e he] at hd
    cases hd
  have hview : ∀ p, (s.restarted cause).passes.get p = restartedPass (s.params p).configured (s.tables.marks.get p) :=
    restarted_pass cause s
  have hrecords : ∀ c m, (restartedPass c m).tips = Trio.all clearedTip ∧ (restartedPass c m).chutes = Duo.all clearedChute := by
    intro c m
    cases c <;> cases m <;> exact ⟨rfl, rfl⟩
  have hconfirmed : confirmedNonSafe (s.restarted cause).view a = false := by
    cases a with
    | gate p c => simp [confirmedNonSafe, openAboveTolerance, hview, hrecords, clearedChute]
    | signal p n => simp [confirmedNonSafe, hview, hrecords, clearedTip]
    | breaker p n => simp [confirmedNonSafe, hview, hrecords, clearedTip]
  simp [isEngaged, hissued, hconfirmed]

/-- R121: in the traffic of start-up a reported change brings nothing. -/
theorem change_restarted {b : Bool} (h : ∀ e ∈ tr.actions, e.direction = .safe) (hpool : tr.pool = []) :
    tr.change (s.restarted cause).view p b = tr := by
  have hround : tr.round (s.restarted cause).view p = tr := by
    unfold Traffic.round
    rw [hpool]
    rfl
  have horders : standingOrders (s.restarted cause).view p tr = [] := by
    refine List.filterMap_eq_nil_iff.mpr fun a _ => ?_
    rw [isEngaged_restarted h, Bool.and_false]
    rfl
  have hcheck : tr.standingCheck (s.restarted cause).view p = tr := by
    unfold Traffic.standingCheck
    rw [horders]
    split <;> rfl
  unfold Traffic.change
  rw [hcheck, ite_self, hround]

theorem startAlert_restarted (h : ∀ e ∈ tr.actions, e.direction = .safe) (hpool : tr.pool = []) :
    State.startAlert { s.restarted cause with traffic := tr } p =
      { s.restarted cause with
        traffic := { tr with
          ctl := if returnsAlert s.tables p then tr.ctl.raise s.tables (.pass p) .alert 13 else tr.ctl } } := by
  have hmode : (State.pass { s.restarted cause with traffic := tr } p).mode
      = if (s.params p).configured then if s.tables.marks.get p then .isolated else .alert else .unconfigured :=
    (congrArg Pass.mode (restarted_pass cause s p)).trans (restartedPass_mode _ _)
  have hreturns : returnsAlert s.tables p = ((s.params p).configured && !s.tables.marks.get p) := rfl
  unfold State.startAlert
  rw [hmode, hreturns]
  cases (s.params p).configured with
  | false => rfl
  | true =>
    cases s.tables.marks.get p with
    | true => rfl
    | false =>
      exact congrArg (fun tr => { s.restarted cause with traffic := tr })
        (change_restarted (s := s) (cause := cause) (tr := tr.raise s.tables (.pass p) .alert 13) (b := true) h hpool)

theorem foldl_startAlert (l : List PassId) : ∀ tr : Traffic, (∀ e ∈ tr.actions, e.direction = .safe) → tr.pool = [] →
    l.foldl State.startAlert { s.restarted cause with traffic := tr } =
      { s.restarted cause with
        traffic := { tr with
          ctl := (l.filter (returnsAlert s.tables)).foldl (fun c p => c.raise s.tables (.pass p) .alert 13) tr.ctl } } := by
  induction l with
  | nil => exact fun _ _ _ => rfl
  | cons p ps ih =>
    intro tr h hpool
    rw [List.foldl_cons, startAlert_restarted h hpool]
    refine (ih { tr with ctl := if returnsAlert s.tables p then tr.ctl.raise s.tables (.pass p) .alert 13 else tr.ctl }
      h hpool).trans ?_
    rw [List.filter_cons]
    split <;> rfl

/-- R176: the notices of start-up, in the order they are raised. -/
def startNotices (cause : ResetCause) (tb : Tables) : List NoticeEntry :=
  (if tb.notices.restart.enabled then [madeNotice tb .device .restart 1 cause.code] else [])
    ++ if tb.notices.alert.enabled then (allPasses.filter (returnsAlert tb)).map fun p => madeNotice tb (.pass p) .alert 1 13
      else []

/-- R176: start-up, with its traffic. -/
theorem startUp_eq : s.startUp cause =
    { s.restarted cause with
      traffic := { startTraffic s.tables (startActuators s.tables) with
        ctl := toldSide s.tables (startNotices cause s.tables) } } := by
  have hrestart : (toldSide s.tables []).raise s.tables .device .restart cause.code
      = toldSide s.tables (if s.tables.notices.restart.enabled then [madeNotice s.tables .device .restart 1 cause.code] else []) :=
    toldSide_raise (by simp)
  have halert := toldSide_foldl (tb := s.tables) (cls := .alert) (n := 13) (allPasses.filter (returnsAlert s.tables))
    (if s.tables.notices.restart.enabled then [madeNotice s.tables .device .restart 1 cause.code] else [])
    ((by decide : allPasses.Nodup).filter _) fun p _ e he => by
      split at he
      · obtain rfl := List.mem_singleton.mp he
        simp [madeNotice]
      · cases he
  unfold State.startUp
  rw [startSafe_all]
  refine (foldl_startAlert (s := s) (cause := cause) allPasses
    { startTraffic s.tables (startActuators s.tables) with
      ctl := (toldSide s.tables []).raise s.tables .device .restart cause.code }
    (fun e he => (mem_startTraffic he).2) rfl).trans ?_
  rw [hrestart, halert]
  rfl

theorem startUp_startedUp : startedUp cause s (s.startUp cause) := by
  rw [startUp_eq]
  exact ⟨rfl, restarted_pass cause s⟩

end startUp

/-- Settles O16: start-up's safe commands and notices, one joining the others after another. -/
theorem startUpOriginatesSafeCommands : Obligations.StartUpOriginatesSafeCommands := by
  intro cause s
  simp only
  rw [startUp_eq]
  refine ⟨rfl, ?_, rfl, ?_⟩
  · simp [startTraffic]
  · cases cause <;> rfl

/-! ### The gates' histories after start-up (R95, R98) -/

section history

variable {a : Actuator} {L : List Actuator} {h : Quad (Duo GateHistory)} {p : PassId} {c : ChuteId}

/-- R98: an issued close sets the last issued direction of its gate. -/
theorem noteIssue_safe_get : ((noteIssue a .safe h).get p).get c =
    if a = .gate p c then { (h.get p).get c with lastIssued := .closing } else (h.get p).get c := by
  cases a with
  | gate q d =>
    by_cases hp : p = q
    · subst hp
      by_cases hc : c = d
      · subst hc
        simp [noteIssue]
      · have hd : d ≠ c := fun e => hc e.symm
        simp [noteIssue, Duo.get_set_ne hc, hd]
    · have hq : q ≠ p := fun e => hp e.symm
      simp [noteIssue, Quad.get_set_ne hp, hq]
  | signal q n => simp [noteIssue]
  | breaker q n => simp [noteIssue]

theorem foldl_noteIssue_get : ((L.foldl (fun h a => noteIssue a .safe h) clearedTraffic.history).get p).get c =
    { reference := .unset, lastIssued := if .gate p c ∈ L then .closing else .unset } := by
  induction L using List.reverseRecOn with
  | nil => simp [clearedTraffic, clearedHistory]
  | append_singleton l b ih =>
    rw [List.foldl_concat, noteIssue_safe_get, ih]
    by_cases hb : b = .gate p c
    · simp [hb]
    · have hb' : Actuator.gate p c ≠ b := fun e => hb e.symm
      simp [hb, hb']

end history

/-! ### Timers while a DEVICE-RESET is pending (R17, R175) -/

section pendingReset

variable {s : State} {p : PassId} {c : Cause} {tel : Option Interrupted} {b : Bool} {a : Actuator}

/-- The state with a DEVICE-RESET pending or not. -/
def State.withReset (b : Bool) (s : State) : State := { s with resetPending := b }

theorem alertCause_withReset : (s.withReset b).alertCause p c tel = (s.alertCause p c tel).withReset b := by
  have hpass : (s.withReset b).pass p = s.pass p := rfl
  unfold State.alertCause
  simp only [hpass]
  cases (s.pass p).mode <;> rfl

theorem tripCause_withReset : (s.withReset b).tripCause p c tel = (s.tripCause p c tel).withReset b := by
  have hpass : (s.withReset b).pass p = s.pass p := rfl
  unfold State.tripCause
  simp only [hpass]
  cases (s.pass p).mode <;> rfl

/-- What each act leaves of a pending DEVICE-RESET, a run of them leaves. -/
theorem foldl_withReset {α : Type} {f : State → α → State} (l : List α)
    (hf : ∀ (s : State) x, f (s.withReset b) x = (f s x).withReset b) :
    ∀ s : State, l.foldl f (s.withReset b) = (l.foldl f s).withReset b := by
  induction l with
  | nil => exact fun _ => rfl
  | cons x xs ih => intro s; rw [List.foldl_cons, hf, ih, List.foldl_cons]

theorem handBand_withReset {before : Band} : (s.withReset b).handBand p before = (s.handBand p before).withReset b := by
  have hpass : (s.withReset b).pass p = s.pass p := rfl
  unfold State.handBand
  simp only [hpass]
  split <;> rfl

theorem evaluate_withReset {o u : Bool} : (s.withReset b).evaluate p o u tel = (s.evaluate p o u tel).withReset b := by
  have hpass : (s.withReset b).pass p = s.pass p := rfl
  have hparams : (s.withReset b).params p = s.params p := rfl
  unfold State.evaluate
  rw [hpass, hparams]
  by_cases hm : (s.pass p).mode = .unconfigured
  · simp only [if_pos hm]
  · simp only [if_neg hm]
    split
    · exact handBand_withReset (s := s.setPass p _)
    · exact foldl_withReset _ (fun _ _ => alertCause_withReset) (s.setPass p _)

theorem staleSample_withReset : (s.withReset b).staleSample p = (s.staleSample p).withReset b := by
  have hpass : (s.withReset b).pass p = s.pass p := rfl
  unfold State.staleSample
  simp only [hpass]
  cases (s.pass p).est.life with
  | none => rfl
  | some n => exact evaluate_withReset (s := s.setPass p _)

theorem originate_withReset : (s.withReset b).originate a = (s.originate a).withReset b := rfl

/-- R143 steps 1 and 2: the failed line is dropped and ACTION-FAIL is raised. -/
def State.failureNoted (e : ActionEntry) (s : State) : State :=
  (s.onTraffic fun v tr => tr.dropFailed v.tables e.actuator).raise (.pass e.actuator.pass) .actionFail
    (10 * operationCode e.actuator e.direction + e.actuator.object.val)

theorem failureNoted_withReset {e : ActionEntry} : (s.withReset b).failureNoted e = (s.failureNoted e).withReset b := rfl

theorem failAction_eq {e : ActionEntry} : s.failAction e tel =
    match e.direction with
    | .nonSafe => ((s.failureNoted e).originate e.actuator).alertCause e.actuator.pass .actionFail tel
    | .safe => (s.failureNoted e).tripCause e.actuator.pass .safeFail tel := rfl

theorem failAction_withReset {e : ActionEntry} : (s.withReset b).failAction e tel = (s.failAction e tel).withReset b := by
  rw [failAction_eq, failAction_eq, failureNoted_withReset]
  cases e.direction with
  | nonSafe => exact (congrArg _ originate_withReset).trans alertCause_withReset
  | safe => exact tripCause_withReset

theorem deadlineRunsOut_withReset : (s.withReset b).deadlineRunsOut a = (s.deadlineRunsOut a).withReset b := by
  have htraffic : (s.withReset b).traffic = s.traffic := rfl
  unfold State.deadlineRunsOut
  rw [htraffic]
  cases issuedEntry s.traffic a with
  | none => rfl
  | some e => exact failAction_withReset

theorem silenceRunsOut_withReset {order : List PassId} :
    (s.withReset b).silenceRunsOut order = (s.silenceRunsOut order).withReset b := by
  have hsilence : (s.withReset b).silence = s.silence := rfl
  unfold State.silenceRunsOut
  rw [hsilence]
  cases s.silence with
  | none => rfl
  | some n => exact foldl_withReset (passOrder order) (fun _ _ => tripCause_withReset) { s with silence := none }

theorem staleSample_within : Within p s (s.staleSample p) := by
  unfold State.staleSample
  simp only
  split
  · exact .refl'
  · exact (setPass_within _).append (evaluate_within _ _ _)

theorem deadlineRunsOut_within : Within a.pass s (s.deadlineRunsOut a) := by
  unfold State.deadlineRunsOut
  split
  · exact .refl'
  · exact failAction_within (by rw [issuedEntry_actuator ‹_›]) _

/-- A timer's expiry, as what it does to the state before the pending DEVICE-RESET is looked at. -/
def Expires (c : Instr) (f : State → State) : Prop :=
  (∀ s, exec c s = .next (f s).settleReset) ∧ (∀ s b, f (s.withReset b) = (f s).withReset b) ∧ ∀ s, SameBase s (f s)

theorem lineSilence_expires (order : List PassId) : Expires (.lineSilenceExpiry order) (State.silenceRunsOut order) := by
  refine ⟨fun _ => rfl, fun _ _ => silenceRunsOut_withReset, fun s => ?_⟩
  unfold State.silenceRunsOut
  split
  · exact .refl'
  · exact SameBase.trans (t := { s with silence := none }) ⟨rfl, rfl, rfl⟩
      (SameBase.foldl _ (fun p _ s => (tripCause_within _ _).sameBase) _)

theorem sampleStale_expires (p : PassId) : Expires (.sampleStale p) (State.staleSample p) :=
  ⟨fun _ => rfl, fun _ _ => staleSample_withReset, fun _ => staleSample_within.sameBase⟩

theorem holdExpiry_expires (a : Actuator) :
    Expires (.holdExpiry a) (fun s => s.onTraffic fun v tr => tr.expireHeld v.tables a) :=
  ⟨fun _ => rfl, fun _ _ => rfl, fun _ => ⟨rfl, rfl, rfl⟩⟩

theorem deadlineExpiry_expires (a : Actuator) : Expires (.deadlineExpiry a) (State.deadlineRunsOut a) :=
  ⟨fun _ => rfl, fun _ _ => deadlineRunsOut_withReset, fun _ => deadlineRunsOut_within.sameBase⟩

theorem timer_expires {c : Instr} (h : (∃ order, c = .lineSilenceExpiry order) ∨ (∃ p, c = .sampleStale p)
    ∨ (∃ a, c = .holdExpiry a) ∨ ∃ a, c = .deadlineExpiry a) : ∃ f, Expires c f := by
  obtain ⟨order, rfl⟩ | ⟨p, rfl⟩ | ⟨a, rfl⟩ | ⟨a, rfl⟩ := h
  · exact ⟨_, lineSilence_expires order⟩
  · exact ⟨_, sampleStale_expires p⟩
  · exact ⟨_, holdExpiry_expires a⟩
  · exact ⟨_, deadlineExpiry_expires a⟩

theorem doneOutstanding_iff : doneOutstanding s = true ↔ (∃ q ∈ s.traffic.ctl.port.queue, q.endsInReset = true)
    ∨ ∃ x, s.traffic.ctl.port.sending = some x ∧ x.endsInReset = true := by
  unfold doneOutstanding
  rw [Bool.or_eq_true, List.any_eq_true]
  refine or_congr Iff.rfl ?_
  cases s.traffic.ctl.port.sending <;> simp

theorem settleReset_of_none (h : s.resetPending = false) : s.settleReset = s := by
  unfold State.settleReset
  rw [h]
  rfl

theorem settleReset_of_outstanding (h : doneOutstanding s = true) : s.settleReset = s := by
  unfold State.settleReset
  rw [h, Bool.not_true, Bool.and_false]
  rfl

theorem settleReset_of_lost (h : s.resetPending = true) (hd : doneOutstanding s = false) :
    s.settleReset = s.startUp .commanded := by
  unfold State.settleReset
  rw [h, hd]
  rfl

/-- R17, R175: an expiry goes on while a DEVICE-RESET is pending, and starts the part up where it lost the reply. -/
theorem Expires.pending {c : Instr} {f : State → State} {v : State} (hf : Expires c f) (hp : s.resetPending = true)
    (hv : exec c { s with resetPending := false } = .next v) :
    (doneOutstanding v = true → exec c s = .next { v with resetPending := true })
      ∧ (doneOutstanding v = false → exec c s = .next (s.startUp .commanded)) := by
  obtain ⟨hexec, hcommute, hbase⟩ := hf
  have hcleared : f { s with resetPending := false } = (f s).withReset false := hcommute s false
  have hpending : f s = (f s).withReset true := by
    have hs : s.withReset true = s := by
      unfold State.withReset
      rw [← hp]
    have := hcommute s true
    rwa [hs] at this
  have hv' : v = (f s).withReset false := by
    rw [hexec, hcleared, settleReset_of_none rfl] at hv
    exact (Host.Outcome.next.inj hv).symm
  have hdone : doneOutstanding v = doneOutstanding (f s) := by rw [hv']; rfl
  rw [hdone, hexec]
  refine ⟨fun h => ?_, fun h => ?_⟩
  · rw [settleReset_of_outstanding h, hv', hpending]
    rfl
  · have hfp : (f s).resetPending = true := by rw [hpending]; rfl
    rw [settleReset_of_lost hfp h, startUp_congr (hbase s)]

end pendingReset

/-- Settles O15: start-up by its traffic and records; an expiry by what it leaves of the DONE reply. -/
theorem startUpClears : Obligations.StartUpClears := by
  refine ⟨fun s => rfl, fun s x hx he => ?_, fun c s v hc hp hv => ?_, fun cause s => ⟨startUp_startedUp, ?_⟩, ?_⟩
  · simp [exec, execLineFree, State.controlLineFree, hx, he]
  · obtain ⟨f, hf⟩ := timer_expires hc
    obtain ⟨hstands, hlost⟩ := hf.pending hp hv
    simp only [← doneOutstanding_iff, Bool.not_eq_true]
    exact ⟨hstands, hlost⟩
  · rw [startUp_eq]
    refine ⟨rfl, rfl, rfl, rfl, fun p c => ?_⟩
    refine foldl_noteIssue_get.trans ?_
    simp only [mem_startActuators]
    rfl
  · refine ⟨fun mark => rfl, rfl, rfl, fun mode => rfl, rfl, rfl, rfl, rfl, fun n => rfl⟩

end Sys2Proof.Machine

/-! What every command leaves alone: the model's own fields, the stored tables, the isolation registers and the states of
alarmed passes (R155, R156, R172, R173). -/

namespace Sys2Proof.Machine

/-! ### A pass's state worsens (R153, R154) -/

section worsens

variable {m m' m'' : PassState}

/-- Of the pass states the causes move: RUNNING to ALERT or TRIPPED, ALERT to TRIPPED, no other. -/
def Worsens (m m' : PassState) : Prop :=
  m' = m ∨ m = .running ∧ (m' = .alert ∨ m' = .tripped) ∨ m = .alert ∧ m' = .tripped

theorem Worsens.refl' : Worsens m m := .inl rfl

theorem Worsens.trans (h : Worsens m m') (h' : Worsens m' m'') : Worsens m m'' := by
  obtain rfl | ⟨rfl, rfl | rfl⟩ | ⟨rfl, rfl⟩ := h
  · exact h'
  · obtain rfl | ⟨h, -⟩ | ⟨-, rfl⟩ := h'
    · exact .inr (.inl ⟨rfl, .inl rfl⟩)
    · cases h
    · exact .inr (.inl ⟨rfl, .inr rfl⟩)
  · obtain rfl | ⟨h, -⟩ | ⟨h, -⟩ := h'
    · exact .inr (.inl ⟨rfl, .inr rfl⟩)
    · cases h
    · cases h
  · obtain rfl | ⟨h, -⟩ | ⟨h, -⟩ := h'
    · exact .inr (.inr ⟨rfl, rfl⟩)
    · cases h
    · cases h

theorem Worsens.inService (h : Worsens m m') (hm : m.inService = true) : m'.inService = true := by
  obtain rfl | ⟨rfl, rfl | rfl⟩ | ⟨rfl, rfl⟩ := h
  · exact hm
  all_goals rfl

theorem Worsens.tripped (h : Worsens m m') (hm : m = .tripped) : m' = .tripped := by
  obtain rfl | ⟨rfl, -⟩ | ⟨rfl, -⟩ := h
  · exact hm
  · cases hm
  · cases hm

theorem Worsens.alert (h : Worsens m m') (hm : m = .alert) : m' = .alert ∨ m' = .tripped := by
  obtain rfl | ⟨rfl, -⟩ | ⟨-, rfl⟩ := h
  · exact .inl hm
  · cases hm
  · exact .inr rfl

theorem worsens_alertCause : Worsens m (if m = .running then .alert else m) := by
  split
  · exact .inr (.inl ⟨‹_›, .inl rfl⟩)
  · exact .refl'

theorem worsens_afterTrip {b : Prop} [Decidable b] : Worsens m (m.afterTrip b) := by
  unfold PassState.afterTrip
  split
  · rename_i h
    cases m
    case running => exact .inr (.inl ⟨rfl, .inr rfl⟩)
    case alert => exact .inr (.inr ⟨rfl, rfl⟩)
    all_goals exact absurd h.2 (by decide)
  · exact .refl'

end worsens

/-! ### Acts on a pass that at most worsen its state -/

section acted

variable {p : PassId} {s t u : State} {c : Cause} {tel : Option Interrupted} {b : Prop} [Decidable b]

/-- An act within pass `p` that at most worsens its state. -/
def Acted (p : PassId) (s u : State) : Prop := Within p s u ∧ Worsens (s.pass p).mode (u.pass p).mode

theorem Acted.refl' : Acted p s s := ⟨.refl', .refl'⟩

theorem Acted.append (h : Acted p s t) (h' : Acted p t u) : Acted p s u := ⟨h.1.append h'.1, h.2.trans h'.2⟩

theorem Acted.of_mode (h : Within p s u) (hm : (u.pass p).mode = (s.pass p).mode) : Acted p s u := ⟨h, .inl hm⟩

theorem Acted.foldl {α : Type} {f : State → α → State} (l : List α) (hf : ∀ x ∈ l, ∀ s, Acted p s (f s x)) :
    ∀ s, Acted p s (l.foldl f s) := by
  induction l with
  | nil => exact fun _ => .refl'
  | cons x xs ih => exact fun s => (hf x List.mem_cons_self s).append (ih (fun y hy => hf y (List.mem_cons_of_mem _ hy)) _)

theorem Acted.ite (h : Acted p s t) (h' : Acted p s u) : Acted p s (if b then t else u) := by
  split
  · exact h
  · exact h'

theorem Acted.modes (h : Acted p s u) (q : PassId) : Worsens (s.pass q).mode (u.pass q).mode := by
  by_cases hq : q = p
  · exact hq ▸ h.2
  · exact .inl (congrArg Pass.mode (h.1.2 q hq).1)

theorem alertCause_acted : Acted p s (s.alertCause p c tel) :=
  ⟨alertCause_within c tel, by rw [alertCause_pass]; exact worsens_alertCause⟩

theorem tripCause_acted : Acted p s (s.tripCause p c tel) :=
  ⟨tripCause_within c tel, by rw [tripCause_pass]; exact worsens_afterTrip⟩

theorem Acted.iteTrip (h : Acted p s t) : Acted p s (if b then t.tripCause p c tel else t) :=
  .ite (h.append tripCause_acted) h

theorem Acted.iteForce {a : Actuator} {r : Reason} (ha : a.pass = p) (h : Acted p s t) :
    Acted p s (if b then t.force a r else t) :=
  .ite (h.append (.of_mode (force_within ha _) (by rw [State.force_pass]))) h

theorem Acted.iteReport (h : Acted p s t) : Acted p s (if b then t else t.reportChange p) :=
  .ite h (h.append (.of_mode reportChange_within rfl))

theorem failAction_acted {e : ActionEntry} (he : e.actuator.pass = p) : Acted p s (s.failAction e tel) := by
  refine ⟨failAction_within he tel, ?_⟩
  rw [failAction_pass he]
  cases e.direction with
  | nonSafe => exact worsens_alertCause
  | safe => exact worsens_afterTrip

theorem candidate_acted {a : Actuator} (ha : a.pass = p) (x : Telegram) : Acted p s (s.candidate a x) := by
  have hconfirm : Acted p s (s.onTraffic fun v tr => tr.confirm v a) :=
    .of_mode (onTraffic_within fun q hq => confirm_spares (ha ▸ Ne.symm hq) _) rfl
  unfold State.candidate
  split
  · rename_i e he
    split
    · exact failAction_acted (by rw [issuedEntry_actuator he]; exact ha)
    · exact hconfirm
  · exact hconfirm

theorem evaluate_acted (o u : Bool) : Acted p s (s.evaluate p o u tel) := by
  by_cases hm : (s.pass p).mode = .unconfigured
  · have hs : s.evaluate p o u tel = s := if_pos hm
    rw [hs]
    exact .refl'
  · refine ⟨evaluate_within o u tel, ?_⟩
    rw [evaluate_pass o u hm]
    unfold Pass.stateEvaluated
    split
    · rename_i h
      exact .inr (.inl ⟨h.1, .inl rfl⟩)
    · exact .refl'

theorem handAccumulator_acted (before : Column) (n : TipId) : Acted p s (State.handAccumulator p before s n) := by
  refine .of_mode ?_ (by rw [handAccumulator_pass])
  unfold State.handAccumulator
  split
  · exact .refl'
  · exact setStanding_within n

theorem completeColumn_acted (before : Column) (o u : Bool) : Acted p s (s.completeColumn p before o u tel) := by
  unfold State.completeColumn
  simp only
  refine Acted.append ?_ (Acted.foldl allTips (fun n _ _ => handAccumulator_acted before n) _)
  split
  · exact evaluate_acted o u
  · exact (evaluate_acted o u).append (.of_mode reportStandingChange_within rfl)

theorem setPass_acted {x : Pass} (hm : x.mode = (s.pass p).mode) : Acted p s (s.setPass p x) :=
  .of_mode (setPass_within x) (by rw [State.setPass_pass_self, hm])

theorem setChute_acted (k : ChuteId) (r : ChuteRecord) : Acted p s (s.setChute p k r) := setPass_acted (by rfl)

theorem setTip_acted (n : TipId) (r : TipRecord) : Acted p s (s.setTip p n r) := setPass_acted (by rfl)

theorem changeColumn_acted (col : Column) (o u : Bool) : Acted p s (s.changeColumn p col o u tel) := by
  unfold State.changeColumn
  exact (setPass_acted (by rfl)).append (completeColumn_acted _ o u)

theorem emptySlot_acted (n : Nat) : Acted p s (s.emptySlot p n) := .of_mode (emptySlot_within n) (by rw [emptySlot_pass])

variable (h : Hit) (x : Telegram)

theorem levelReport_acted : Acted h.pass s (levelReport h x s) := by
  unfold levelReport State.takeSample
  exact (setPass_acted (by rfl)).append (evaluate_acted _ _)

theorem tipReport_acted : Acted h.pass s (tipReport h x s) := by
  unfold tipReport
  split
  · exact .refl'
  · exact changeColumn_acted _ _ _

theorem drawReport_acted : Acted h.pass s (drawReport h x s) := by
  unfold drawReport
  split
  · exact .refl'
  · exact changeColumn_acted _ _ _

theorem grizzlyClearReport_acted : Acted h.pass s (grizzlyClearReport h x s) := by
  unfold grizzlyClearReport
  split
  · exact .refl'
  · exact changeColumn_acted _ _ _

theorem moistureAtColumn_acted (w : Wetness) : Acted p s (moistureAtColumn p w x s) := by
  unfold moistureAtColumn
  simp only
  split
  · exact .refl'
  · exact changeColumn_acted _ _ _

theorem moistureAtChute_acted (k : ChuteId) (w : Wetness) : Acted p s (moistureAtChute p k w x s) := by
  unfold moistureAtChute
  exact .iteTrip (setChute_acted _ _)

theorem chuteMoistureReport_acted : Acted h.pass s (chuteMoistureReport h x s) :=
  (moistureAtColumn_acted x _).append (moistureAtChute_acted x _ _)

theorem gatePositionReport_acted : Acted h.pass s (gatePositionReport h x s) := by
  unfold gatePositionReport
  exact (Acted.iteReport (.iteTrip (.iteTrip (setChute_acted _ _)))).append (candidate_acted rfl _)

theorem signalStateReport_acted : Acted h.pass s (signalStateReport h x s) := by
  unfold signalStateReport
  split
  · exact .refl'
  · exact (Acted.iteReport (.iteForce rfl (.iteTrip (setTip_acted _ _)))).append (candidate_acted rfl _)

theorem breakerStateReport_acted : Acted h.pass s (breakerStateReport h x s) := by
  unfold breakerStateReport
  split
  · exact .refl'
  · exact (Acted.iteReport (.iteTrip (setTip_acted _ _))).append (candidate_acted rfl _)

theorem wagonReport_acted : Acted h.pass s (wagonReport h x s) := by
  unfold wagonReport
  split
  · exact .refl'
  · exact Acted.iteReport (.iteForce rfl (setChute_acted _ _))

theorem noticePostReport_acted : Acted h.pass s (noticePostReport h x s) := by
  refine .of_mode (noticePostReport_within h x) ?_
  unfold noticePostReport
  split
  · rfl
  · simp only
    split <;> simp

/-- A report at most worsens the state of its pass. -/
theorem reportEffect_acted (r : Role) : Acted h.pass s (reportEffect r h x s) := by
  cases r
  case level => exact levelReport_acted h x
  case tip => exact tipReport_acted h x
  case draw => exact drawReport_acted h x
  case grizzlyClear => exact grizzlyClearReport_acted h x
  case chuteMoisture => exact chuteMoistureReport_acted h x
  case gatePosition => exact gatePositionReport_acted h x
  case signalState => exact signalStateReport_acted h x
  case breakerState => exact breakerStateReport_acted h x
  case wagon => exact wagonReport_acted h x
  case noticePost => exact noticePostReport_acted h x
  case noticeTaken => exact emptySlot_acted _
  all_goals exact .refl'

end acted

/-! ### The frame of a command -/

section framed

variable {s t u : State} {p : PassId}

/-- R172: the tables of a pass in service stay, and while any pass is in service the device-wide tables. -/
def TablesKept (s u : State) : Prop :=
  (∀ p, (s.pass p).mode.inService = true →
      u.params p = s.params p ∧ u.tables.interlock.get p = s.tables.interlock.get p
        ∧ u.tables.openings.get p = s.tables.openings.get p ∧ u.tables.grizzly.get p = s.tables.grizzly.get p)
    ∧ ((∃ p, (s.pass p).mode.inService = true) →
        u.tables.points = s.tables.points ∧ u.tables.device = s.tables.device ∧ u.tables.notices = s.tables.notices)

theorem TablesKept.of_eq (h : u.tables = s.tables) : TablesKept s u := by
  unfold TablesKept State.params
  rw [h]
  exact ⟨fun _ _ => ⟨rfl, rfl, rfl, rfl⟩, fun _ => ⟨rfl, rfl, rfl⟩⟩

/-- What every command but start-up and the isolation requests leaves alone. -/
structure Framed (s u : State) : Prop where
  pending : u.pending = s.pending
  draws : u.draws = s.draws
  isolation : u.pendingIsolation = s.pendingIsolation
  bar : u.bar = s.bar
  service : ∀ p, (s.pass p).mode.inService = true → (u.pass p).mode.inService = true
  tables : TablesKept s u

theorem Framed.refl' : Framed s s := ⟨rfl, rfl, rfl, rfl, fun _ h => h, .of_eq rfl⟩

theorem Framed.trans (h : Framed s t) (h' : Framed t u) : Framed s u := by
  refine ⟨h'.pending.trans h.pending, h'.draws.trans h.draws, h'.isolation.trans h.isolation, h'.bar.trans h.bar,
    fun p hp => h'.service p (h.service p hp), fun p hp => ?_, fun ⟨p, hp⟩ => ?_⟩
  · obtain ⟨e1, e2, e3, e4⟩ := h.tables.1 p hp
    obtain ⟨d1, d2, d3, d4⟩ := h'.tables.1 p (h.service p hp)
    exact ⟨d1.trans e1, d2.trans e2, d3.trans e3, d4.trans e4⟩
  · obtain ⟨e1, e2, e3⟩ := h.tables.2 ⟨p, hp⟩
    obtain ⟨d1, d2, d3⟩ := h'.tables.2 ⟨p, h.service p hp⟩
    exact ⟨d1.trans e1, d2.trans e2, d3.trans e3⟩

/-- An act within a pass that keeps it in service. -/
theorem Framed.of_within (h : Within p s u) (hm : (s.pass p).mode.inService = true → (u.pass p).mode.inService = true) :
    Framed s u := by
  have hq : ∀ q, (s.pass q).mode.inService = true → (u.pass q).mode.inService = true := by
    intro q
    by_cases hqp : q = p
    · exact hqp ▸ hm
    · rw [(h.2 q hqp).1]
      exact id
  obtain ⟨hu, -⟩ := h
  rw [hu] at hq ⊢
  exact ⟨rfl, rfl, rfl, rfl, hq, .of_eq rfl⟩

theorem Acted.framed (h : Acted p s u) : Framed s u := .of_within h.1 h.2.inService

/-- Timers, time base, traffic and the pending reset are not in the frame. -/
theorem Framed.of_rest (silence : Option Nat) (time : Word) (traffic : Traffic) (rp : Bool) :
    Framed s { s with silence := silence, time := time, traffic := traffic, resetPending := rp } :=
  ⟨rfl, rfl, rfl, rfl, fun _ h => h, .of_eq rfl⟩

theorem Framed.onTraffic (f : View → Traffic → Traffic) : Framed s (s.onTraffic f) := .of_rest s.silence s.time _ s.resetPending

theorem not_anyInService (h : noneInService s = true) : ¬∃ p, (s.pass p).mode.inService = true := by
  rintro ⟨p, hp⟩
  rw [noneInService_iff.mp h p] at hp
  cases hp

/-- R172: a write that is allowed touches no table of a pass in service. -/
theorem store_tablesKept {f : TableField} {x : Int} (h : writeAllowed s f = true) : TablesKept s (s.store f x) := by
  have hpass : ∀ {q r : PassId}, (!(s.pass r).mode.inService) = true → (s.pass q).mode.inService = true → q ≠ r := by
    rintro q r hr hq rfl
    rw [hq] at hr
    cases hr
  refine ⟨fun q hq => ?_, fun hany => ?_⟩
  · unfold State.params
    cases f with
    | device sel => cases sel <;> exact ⟨rfl, rfl, rfl, rfl⟩
    | param p sel => exact ⟨Quad.get_set_ne (hpass h hq) _ _, rfl, rfl, rfl⟩
    | cell p r c => exact ⟨rfl, Quad.get_set_ne (hpass h hq) _ _, rfl, rfl⟩
    | holdTime p r => exact ⟨rfl, Quad.get_set_ne (hpass h hq) _ _, rfl, rfl⟩
    | opening p w => exact ⟨rfl, rfl, Quad.get_set_ne (hpass h hq) _ _, rfl⟩
    | grizzly p n => exact ⟨rfl, rfl, rfl, Quad.get_set_ne (hpass h hq) _ _⟩
    | _ => exact ⟨rfl, rfl, rfl, rfl⟩
  · cases f with
    | point i sel => exact absurd hany (not_anyInService h)
    | device sel => exact absurd hany (not_anyInService h)
    | noticeEnable c => exact absurd hany (not_anyInService h)
    | noticePriority c => exact absurd hany (not_anyInService h)
    | _ => exact ⟨rfl, rfl, rfl⟩

theorem store_framed {f : TableField} {x : Int} (h : writeAllowed s f = true) : Framed s (s.store f x) :=
  ⟨rfl, rfl, rfl, rfl, fun _ h => h, store_tablesKept h⟩

theorem setPoint_framed {i : Fin 128} {e : PointEntry} (h : noneInService s = true) : Framed s (s.setPoint i e) :=
  ⟨rfl, rfl, rfl, rfl, fun _ h => h, fun _ _ => ⟨rfl, rfl, rfl, rfl⟩, fun hany => absurd hany (not_anyInService h)⟩

/-- The isolation marks are not in the frame. -/
theorem setMark_framed (b : Bool) : Framed s (s.setMark p b) :=
  ⟨rfl, rfl, rfl, rfl, fun _ h => h, fun _ _ => ⟨rfl, rfl, rfl, rfl⟩, fun _ => ⟨rfl, rfl, rfl⟩⟩

theorem setPass_framed {x : Pass} (h : (s.pass p).mode.inService = true → x.mode.inService = true) :
    Framed s (s.setPass p x) := .of_within (setPass_within x) (by rwa [State.setPass_pass_self])

theorem heard_framed {port : PortId} : Framed s (heard port s) := by
  cases port with
  | control => exact .of_rest (startedSilence s.tables.device.silenceTime) s.time s.traffic s.resetPending
  | field => exact .refl'

end framed

/-! ### The frame of a request -/

section requests

variable {s : State} {p : PassId} {t : Telegram} {x : Int} {f : TableField} {r : Request}

theorem checkedWrite_framed {carryOut : State → Reply} (h : writeAllowed s f = true → Framed s (carryOut s).state) :
    Framed s (checkedWrite f x s carryOut).state := by
  unfold checkedWrite
  split
  · exact .refl'
  · rename_i ha
    split
    · exact .refl'
    · exact h (by simpa using ha)

theorem forPass_framed {f : PassId → Reply} (h : ∀ p, requestPass t = some p → Framed s (f p).state) :
    Framed s (forPass t s f).state := by
  unfold forPass
  split
  · exact .refl'
  · exact h _ ‹_›

theorem readItem_state : (readItem t s).state = s := by
  unfold readItem
  split
  · exact readValue_state _
  · rfl

theorem writeField_framed {f : Option TableField} : Framed s (writeField f x s).state := by
  cases f with
  | none => exact .refl'
  | some f => exact checkedWrite_framed store_framed

theorem writeValidField_framed {i : Fin 128} : Framed s (writeValidField i x s).state := by
  refine checkedWrite_framed fun h => ?_
  have hset : ∀ e, Framed s (s.setPoint i e) := fun e => setPoint_framed h
  simp only
  split
  · split
    · exact .refl'
    · split
      · exact .refl'
      · split
        · exact .refl'
        · split
          · exact .refl'
          · exact hset _
  · split
    · split
      · exact .refl'
      · exact hset _
    · exact hset _

theorem writePointSel_framed {i : Fin 128} {sel : PointSel} : Framed s (writePointSel i sel x s).state := by
  refine checkedWrite_framed fun h => ?_
  have hset : ∀ e, Framed s (s.setPoint i e) := fun e => setPoint_framed h
  simp only
  split
  · exact hset _
  · split
    · exact .refl'
    · split
      · exact .refl'
      · split
        · exact .refl'
        · split
          · exact .refl'
          · exact hset _

theorem configurePass_framed (h : writeAllowed s (.param p .configured) = true) (hm : (s.pass p).mode.inService = false) :
    Framed s (s.configurePass p) := by
  rw [configurePass_eq]
  refine Framed.trans ?_ (.onTraffic _)
  unfold State.configured
  exact ((store_framed h).trans (setPass_framed (by simp [hm]))).trans (setMark_framed true)

theorem unconfigurePass_framed (h : writeAllowed s (.param p .configured) = true) (hm : (s.pass p).mode.inService = false) :
    Framed s (s.unconfigurePass p) := by
  rw [unconfigurePass_eq]
  refine Framed.trans ?_ (.onTraffic _)
  unfold State.unconfigured
  exact (((store_framed h).trans (setPass_framed (by simp [hm]))).trans (setMark_framed false)).trans (.of_rest _ _ _ _)

theorem writeConfiguredField_framed : Framed s (writeConfiguredField p x s).state := by
  refine checkedWrite_framed fun h => ?_
  have hm : (s.pass p).mode.inService = false := by simpa [writeAllowed] using h
  split
  · split
    · exact configurePass_framed h hm
    · exact .refl'
  · split
    · exact .refl'
    · split
      · exact .refl'
      · exact unconfigurePass_framed h hm

theorem handBand_framed {before : Band} : Framed s (s.handBand p before) :=
  .of_within (handBand_within before) (by rw [handBand_pass]; exact id)

theorem resetHeights_framed : Framed s (s.resetHeights p) := by
  unfold State.resetHeights
  exact (setPass_framed (by exact id)).trans handBand_framed

theorem writeLength_framed : Framed s (writeLength p x s).state := by
  refine checkedWrite_framed fun h => ?_
  simp only
  split
  · exact (store_framed h).trans resetHeights_framed
  · exact store_framed h

theorem setStanding_framed {n : TipId} : Framed s (s.setStanding p n) :=
  .of_within (setStanding_within n) (by rw [setStanding_pass]; exact id)

theorem writeGrizzly_framed {n : TipId} : Framed s (writeGrizzly p n x s).state := by
  refine checkedWrite_framed fun h => ?_
  simp only
  split
  · exact (store_framed h).trans (setPass_framed id)
  · exact (store_framed h).trans setStanding_framed

theorem writeSilenceTime_framed : Framed s (writeSilenceTime x s).state :=
  checkedWrite_framed fun h => (store_framed h).trans (.of_rest _ _ _ _)

theorem restoreRequest_framed : Framed s (restoreRequest t s).state := by
  refine forPass_framed fun p _ => ?_
  split
  · exact .refl'
  · split
    · exact .refl'
    · exact (((setPass_framed fun _ => rfl).trans (setMark_framed false)).trans (.onTraffic _)).trans
        (evaluate_acted _ _).framed

theorem acknowledgeRequest_framed : Framed s (acknowledgeRequest t s).state := by
  refine forPass_framed fun p _ => ?_
  split
  · exact .refl'
  · exact ((setPass_framed fun _ => rfl).trans (.onTraffic _)).trans (evaluate_acted _ _).framed

theorem resetPass_within : Within p s (s.resetPass p) := by
  unfold State.resetPass
  simp only
  refine Within.append (Within.append ?_ (emptySlot_within 4)) (completeColumn_within _ _ _ _)
  split
  · exact ((setPass_within _).append (setPass_within _)).append reportChange_within
  · exact ((setPass_within _).append (setPass_within _)).append reportChange_within
  all_goals exact setPass_within _

theorem resetPass_framed : Framed s (s.resetPass p) := by
  have hcleared : Framed s (s.setPass p (resetRecords (s.pass p))) := setPass_framed id
  have hrun : ∀ u : State, Framed u ((u.setPass p { u.pass p with mode := .running }).reportChange p) := fun u =>
    (setPass_framed fun _ => rfl).trans (.onTraffic _)
  unfold State.resetPass
  simp only
  refine Framed.trans (Framed.trans ?_ (emptySlot_acted 4).framed) (completeColumn_acted _ _ _).framed
  split
  · exact hcleared.trans (hrun _)
  · exact hcleared.trans (hrun _)
  all_goals exact hcleared

theorem passResetRequest_framed : Framed s (passResetRequest t s).state := by
  refine forPass_framed fun p _ => ?_
  split
  · exact .refl'
  · exact resetPass_framed
  all_goals
    split
    · exact resetPass_framed
    · exact .refl'

theorem surveyRequest_framed : Framed s (surveyRequest t s).state := by
  refine forPass_framed fun p _ => ?_
  split
  · exact .refl'
  · split
    · exact .refl'
    · split
      · exact .refl'
      · exact (changeColumn_acted _ _ _).framed

theorem clearFlagsRequest_framed : Framed s (clearFlagsRequest t s).state := by
  unfold clearFlagsRequest
  split
  · exact .of_rest _ _ _ _
  · refine forPass_framed fun p _ => ?_
    simp only
    split
    · exact .refl'
    · exact setPass_framed id

/-- Every request but the two of the isolation sequence. -/
theorem requestReply_framed (h1 : r ≠ .isolateRequest) (h2 : r ≠ .isolateConfirm) :
    Framed s (requestReply r t s).state := by
  cases r with
  | unknown => exact .refl'
  | readItem => exact readItem_state ▸ Framed.refl'
  | tableRead f => exact (readValue_state (f.map s.tables.read)).symm ▸ Framed.refl'
  | writeEntry f => exact writeField_framed
  | writeValid i => exact writeValidField_framed
  | writePointField i sel => exact writePointSel_framed
  | writeConfigured p => exact writeConfiguredField_framed
  | writeL p => exact writeLength_framed
  | writeGrizzlyLimit p n => exact writeGrizzly_framed
  | writeLineSilenceTime => exact writeSilenceTime_framed
  | isolateRequest => exact absurd rfl h1
  | isolateConfirm => exact absurd rfl h2
  | restore => exact restoreRequest_framed
  | acknowledge => exact acknowledgeRequest_framed
  | passReset => exact passResetRequest_framed
  | surveyLoad => exact surveyRequest_framed
  | clearFlags => exact clearFlagsRequest_framed
  | timeSet => exact .of_rest s.silence t.value s.traffic s.resetPending
  | deviceReset => exact .of_rest s.silence s.time s.traffic true

end requests

end Sys2Proof.Machine

/-! Every command answers, a refused request changes nothing, and the laws of the whole machine that follow from what each
command leaves alone (R155, R156, R169, R172, R173). -/

namespace Sys2Proof.Machine

/-! ### Refused requests (R169) -/

section refusals

variable {s : State} {p : PassId} {t : Telegram} {x : Int} {f : TableField} {r : Request}

/-- A request whose status is not DONE has changed nothing. -/
def Reply.Honest (s : State) (r : Reply) : Prop := r.status ≠ .done → r.state = s

theorem honest_refuse (st : Status) : (refuse s st).Honest s := fun _ => rfl

theorem honest_done {u : State} : (done u).Honest s := fun h => absurd rfl h

theorem honest_ite {b : Prop} [Decidable b] {y z : Reply} (hy : y.Honest s) (hz : z.Honest s) :
    (if b then y else z).Honest s := by
  split
  · exact hy
  · exact hz

theorem readValue_honest (o : Option Int) : (readValue s o).Honest s := fun _ => readValue_state o

theorem checkedWrite_honest {carryOut : State → Reply} (h : (carryOut s).Honest s) :
    (checkedWrite f x s carryOut).Honest s :=
  honest_ite (honest_refuse _) (honest_ite (honest_refuse _) h)

theorem forPass_honest {g : PassId → Reply} (h : ∀ p, (g p).Honest s) : (forPass t s g).Honest s := by
  unfold forPass
  split
  · exact honest_refuse _
  · exact h _

theorem writeField_honest (f : Option TableField) : (writeField f x s).Honest s := by
  cases f with
  | none => exact honest_refuse _
  | some f => exact checkedWrite_honest honest_done

theorem writeValidField_honest (i : Fin 128) : (writeValidField i x s).Honest s :=
  checkedWrite_honest <| honest_ite
    (honest_ite honest_done <| honest_ite (honest_refuse _) <| honest_ite (honest_refuse _) <| honest_ite (honest_refuse _)
      honest_done)
    (honest_ite (honest_ite (honest_refuse _) honest_done) honest_done)

theorem writePointSel_honest (i : Fin 128) (sel : PointSel) : (writePointSel i sel x s).Honest s :=
  checkedWrite_honest <| honest_ite honest_done <| honest_ite honest_done <| honest_ite (honest_refuse _) <|
    honest_ite (honest_refuse _) <| honest_ite (honest_refuse _) honest_done

theorem writeConfiguredField_honest : (writeConfiguredField p x s).Honest s := by
  refine checkedWrite_honest ?_
  split
  · exact honest_ite honest_done honest_done
  · exact honest_ite honest_done (honest_ite (honest_refuse _) honest_done)

theorem isolateRequest_honest : (isolateRequest t s).Honest s := by
  refine honest_ite (honest_refuse _) ?_
  split
  · exact honest_refuse _
  · exact honest_done

theorem passResetRequest_honest : (passResetRequest t s).Honest s := by
  refine forPass_honest fun p => ?_
  split
  · exact honest_refuse _
  · exact honest_done
  all_goals exact honest_ite honest_done (honest_refuse _)

theorem surveyRequest_honest : (surveyRequest t s).Honest s := by
  refine forPass_honest fun p => honest_ite (honest_refuse _) (honest_ite (honest_refuse _) ?_)
  split
  · exact honest_refuse _
  · exact honest_done

theorem requestReply_honest (h : r ≠ .isolateConfirm) : (requestReply r t s).Honest s := by
  cases r with
  | unknown => exact honest_refuse _
  | readItem => exact honest_ite (readValue_honest _) (honest_refuse _)
  | tableRead f => exact readValue_honest _
  | writeEntry f => exact writeField_honest f
  | writeValid i => exact writeValidField_honest i
  | writePointField i sel => exact writePointSel_honest i sel
  | writeConfigured p => exact writeConfiguredField_honest
  | writeL p => exact checkedWrite_honest (honest_ite honest_done honest_done)
  | writeGrizzlyLimit p n => exact checkedWrite_honest (honest_ite honest_done honest_done)
  | writeLineSilenceTime => exact checkedWrite_honest honest_done
  | isolateRequest => exact isolateRequest_honest
  | isolateConfirm => exact absurd rfl h
  | restore => exact forPass_honest fun p => honest_ite (honest_refuse _) (honest_ite (honest_refuse _) honest_done)
  | acknowledge => exact forPass_honest fun p => honest_ite (honest_refuse _) honest_done
  | passReset => exact passResetRequest_honest
  | surveyLoad => exact surveyRequest_honest
  | clearFlags => exact honest_ite honest_done (forPass_honest fun p => honest_ite (honest_refuse _) honest_done)
  | timeSet => exact honest_done
  | deviceReset => exact honest_done

/-- R160, R173: what an ISOLATE-CONFIRM does to the state. -/
theorem isolateConfirm_cases :
    (isolateConfirm t s).state = s
      ∨ (isolateConfirm t s).state = { s with pendingIsolation := none, bar := true }
      ∨ (isolateConfirm t s).state = { s with pendingIsolation := none }
      ∨ ∃ p, requestPass t = some p ∧ (isolateConfirm t s).status = .done
          ∧ (isolateConfirm t s).state = State.isolatePass p { s with pendingIsolation := none } := by
  unfold isolateConfirm
  split
  · exact .inl rfl
  · split
    · exact .inl rfl
    · rename_i p hp
      simp only
      split
      · unfold confirmIsolation
        split
        · exact .inr (.inr (.inl rfl))
        · split
          · exact .inr (.inr (.inl rfl))
          · exact .inr (.inr (.inr ⟨p, hp, rfl, rfl⟩))
      · exact .inr (.inl rfl)

theorem isReset_eq : r.isReset = decide (r = .deviceReset) := by cases r <;> rfl

end refusals

/-- Settles O46: an arrival is dealt with by its fate; request by request, a refusal changes nothing. -/
theorem refusedRequestsChangeNothing : Obligations.RefusedRequestsChangeNothing := by
  refine ⟨fun c r t s hc hf => ?_, fun r t s hs => ⟨fun hr => requestReply_honest hr hs, fun hr => ?_⟩⟩
  · rw [exec_of_fate hc hf, ← isReset_eq]
    rfl
  · subst hr
    have hreply : requestReply .isolateConfirm t s = isolateConfirm t s := rfl
    rw [hreply] at hs ⊢
    obtain h | h | h | ⟨p, -, hdone, -⟩ := isolateConfirm_cases (t := t) (s := s)
    · rw [h]
    · rw [h]
    · rw [h]
    · exact absurd hdone hs

/-! ### The states of alarmed passes through a request -/

section modes

variable {s t u : State} {p q : PassId} {tl : Telegram} {x : Int} {f : TableField}

/-- R155, R156: pass `q` stays TRIPPED where it is, and in ALERT stays there or trips. -/
def AlarmKept (q : PassId) (s u : State) : Prop :=
  ((s.pass q).mode = .tripped → (u.pass q).mode = .tripped)
    ∧ ((s.pass q).mode = .alert → (u.pass q).mode = .alert ∨ (u.pass q).mode = .tripped)

theorem AlarmKept.of_worsens (h : Worsens (s.pass q).mode (u.pass q).mode) : AlarmKept q s u := ⟨h.tripped, h.alert⟩

theorem AlarmKept.of_mode (h : (u.pass q).mode = (s.pass q).mode) : AlarmKept q s u := .of_worsens (.inl h)

theorem AlarmKept.of_pass (h : u.pass q = s.pass q) : AlarmKept q s u := .of_mode (congrArg Pass.mode h)

theorem AlarmKept.trans (h : AlarmKept q s t) (h' : AlarmKept q t u) : AlarmKept q s u :=
  ⟨fun hm => h'.1 (h.1 hm), fun hm => (h.2 hm).elim h'.2 fun ht => .inr (h'.1 ht)⟩

/-- A pass out of service shows no alarm. -/
theorem AlarmKept.of_rest (h : (s.pass q).mode.inService = false) : AlarmKept q s u := by
  constructor
  · intro hm; rw [hm] at h; cases h
  · intro hm; rw [hm] at h; cases h

theorem checkedWrite_alarm {carryOut : State → Reply} (h : writeAllowed s f = true → AlarmKept q s (carryOut s).state) :
    AlarmKept q s (checkedWrite f x s carryOut).state := by
  unfold checkedWrite
  split
  · exact .of_pass rfl
  · rename_i ha
    split
    · exact .of_pass rfl
    · exact h (by simpa using ha)

theorem forPass_alarm {g : PassId → Reply} (h : ∀ p, requestPass tl = some p → AlarmKept q s (g p).state) :
    AlarmKept q s (forPass tl s g).state := by
  unfold forPass
  split
  · exact .of_pass rfl
  · exact h _ ‹_›

theorem AlarmKept.of_passes (h : u.passes = s.passes) : AlarmKept q s u :=
  .of_pass (congrArg (fun passes : Quad Pass => passes.get q) h)

theorem writeField_alarm (f : Option TableField) : AlarmKept q s (writeField f x s).state := by
  cases f with
  | none => exact .of_pass rfl
  | some f => exact checkedWrite_alarm fun _ => .of_passes rfl

theorem writeValidField_passes (i : Fin 128) : (writeValidField i x s).state.passes = s.passes := by
  unfold writeValidField checkedWrite
  simp only
  repeat' split
  all_goals rfl

theorem writePointSel_passes (i : Fin 128) (sel : PointSel) : (writePointSel i sel x s).state.passes = s.passes := by
  unfold writePointSel checkedWrite
  simp only
  repeat' split
  all_goals rfl

theorem writeConfiguredField_alarm : AlarmKept q s (writeConfiguredField p x s).state := by
  refine checkedWrite_alarm fun h => ?_
  have hm : (s.pass p).mode.inService = false := by simpa [writeAllowed] using h
  by_cases hq : q = p
  · exact .of_rest (hq ▸ hm)
  · refine .of_pass ?_
    split
    · split
      · rw [configurePass_eq]
        exact State.setPass_pass_ne hq
      · rfl
    · split
      · rfl
      · split
        · rfl
        · rw [unconfigurePass_eq]
          exact State.setPass_pass_ne hq

theorem writeLength_alarm : AlarmKept q s (writeLength p x s).state := by
  refine checkedWrite_alarm fun _ => ?_
  simp only
  split
  · refine .of_mode ?_
    unfold done State.resetHeights
    simp only [handBand_pass]
    rw [State.setPass_pass]
    split
    · rename_i hq
      rw [hq]
      rfl
    · rfl
  · exact .of_passes rfl

theorem setTip_mode {n : TipId} {r : TipRecord} : ((s.setTip p n r).pass q).mode = (s.pass q).mode := by
  by_cases hq : q = p
  · rw [hq, State.setTip_pass_self]
  · rw [State.setTip_pass_ne hq]

theorem setStanding_mode {n : TipId} : ((s.setStanding p n).pass q).mode = (s.pass q).mode := by
  by_cases hq : q = p
  · rw [hq, setStanding_pass]
  · rw [((setStanding_within n).2 q hq).1]

theorem writeGrizzly_alarm {n : TipId} : AlarmKept q s (writeGrizzly p n x s).state := by
  refine checkedWrite_alarm fun _ => ?_
  simp only
  split
  · exact .of_mode setTip_mode
  · exact .of_mode setStanding_mode

theorem restoreRequest_alarm : AlarmKept q s (restoreRequest tl s).state := by
  refine forPass_alarm fun p _ => ?_
  split
  · exact .of_pass rfl
  · rename_i hm
    split
    · exact .of_pass rfl
    · have hi : (s.pass p).mode = .isolated := by simpa using hm
      by_cases hq : q = p
      · exact .of_rest (by rw [hq, hi]; rfl)
      · refine .of_pass (((evaluate_within false false none).2 q hq).1.trans ?_)
        exact State.setPass_pass_ne hq

/-- R157: an ACKNOWLEDGE takes a pass out of ALERT alone. -/
theorem acknowledgeRequest_alarm :
    ((s.pass q).mode = .tripped → ((acknowledgeRequest tl s).state.pass q).mode = .tripped)
      ∧ (requestPass tl ≠ some q → (acknowledgeRequest tl s).state.pass q = s.pass q) := by
  unfold acknowledgeRequest forPass
  split
  · exact ⟨id, fun _ => rfl⟩
  · rename_i p hp
    simp only
    split
    · exact ⟨id, fun _ => rfl⟩
    · rename_i hm
      have ha : (s.pass p).mode = .alert := by simpa using hm
      have helse : q ≠ p → (done ((s.acknowledgePass p).evaluate p false false none)).state.pass q = s.pass q := fun hq =>
        ((evaluate_within false false none).2 q hq).1.trans (State.setPass_pass_ne hq)
      refine ⟨fun ht => ?_, fun hne => helse fun hq => hne (hp.trans (congrArg some hq.symm))⟩
      have hq : q ≠ p := by
        rintro rfl
        rw [ha] at ht
        cases ht
      rw [helse hq]
      exact ht

theorem passResetRequest_elsewhere (h : requestPass tl ≠ some q) : (passResetRequest tl s).state.pass q = s.pass q := by
  unfold passResetRequest forPass
  split
  · rfl
  · rename_i p hp
    have hq : q ≠ p := fun hq => h (by rw [hp, hq])
    have hreset : (done (s.resetPass p)).state.pass q = s.pass q := (resetPass_within.2 q hq).1
    simp only
    split
    · rfl
    · exact hreset
    all_goals
      split
      · exact hreset
      · rfl

theorem surveyRequest_alarm : AlarmKept q s (surveyRequest tl s).state := by
  refine forPass_alarm fun p _ => ?_
  split
  · exact .of_pass rfl
  · split
    · exact .of_pass rfl
    · split
      · exact .of_pass rfl
      · exact .of_worsens ((changeColumn_acted _ _ _).modes q)

theorem clearFlagsRequest_alarm : AlarmKept q s (clearFlagsRequest tl s).state := by
  unfold clearFlagsRequest
  split
  · exact .of_pass rfl
  · refine forPass_alarm fun p _ => ?_
    simp only
    split
    · exact .of_pass rfl
    · exact .of_worsens ((setPass_acted (by rfl)).modes q)

theorem isolateRequest_kept : (isolateRequest tl s).state.passes = s.passes ∧ (isolateRequest tl s).state.pending = s.pending
    ∧ (isolateRequest tl s).state.draws = s.draws ∧ (isolateRequest tl s).state.tables = s.tables
    ∧ (isolateRequest tl s).state.bar = s.bar := by
  unfold isolateRequest
  split
  · exact ⟨rfl, rfl, rfl, rfl, rfl⟩
  · split <;> exact ⟨rfl, rfl, rfl, rfl, rfl⟩

theorem isolatePass_within_pass (hq : q ≠ p) : (s.isolatePass p).pass q = s.pass q := by
  unfold State.isolatePass
  exact State.setPass_pass_ne hq

theorem isolateConfirm_elsewhere (h : requestPass tl ≠ some q) : (isolateConfirm tl s).state.pass q = s.pass q := by
  obtain e | e | e | ⟨p, hp, -, e⟩ := isolateConfirm_cases (t := tl) (s := s) <;> rw [e]
  · rfl
  · rfl
  · exact isolatePass_within_pass fun hq => h (by rw [hp, hq])

/-- R155, R156: what a request leaves of an alarmed pass. -/
theorem requestReply_alarm {r : Request} (h1 : requestPass tl = some q → r ≠ .passReset ∧ r ≠ .isolateConfirm) :
    ((s.pass q).mode = .tripped → ((requestReply r tl s).state.pass q).mode = .tripped)
      ∧ ((s.pass q).mode = .alert → (requestPass tl = some q → r ≠ .acknowledge) →
          ((requestReply r tl s).state.pass q).mode = .alert ∨ ((requestReply r tl s).state.pass q).mode = .tripped) := by
  have kept : AlarmKept q s (requestReply r tl s).state → _ := fun (h : AlarmKept q s (requestReply r tl s).state) =>
    And.intro h.1 fun hm (_ : requestPass tl = some q → r ≠ .acknowledge) => h.2 hm
  cases r with
  | unknown => exact kept (.of_pass rfl)
  | readItem => exact kept (.of_passes (congrArg State.passes readItem_state))
  | tableRead f => exact kept (.of_passes (congrArg State.passes (readValue_state _)))
  | writeEntry f => exact kept (writeField_alarm f)
  | writeValid i => exact kept (.of_passes (writeValidField_passes i))
  | writePointField i sel => exact kept (.of_passes (writePointSel_passes i sel))
  | writeConfigured p => exact kept writeConfiguredField_alarm
  | writeL p => exact kept writeLength_alarm
  | writeGrizzlyLimit p n => exact kept writeGrizzly_alarm
  | writeLineSilenceTime => exact kept (checkedWrite_alarm fun _ => .of_passes rfl)
  | isolateRequest => exact kept (.of_passes isolateRequest_kept.1)
  | isolateConfirm => exact kept (.of_pass (isolateConfirm_elsewhere fun h => (h1 h).2 rfl))
  | restore => exact kept restoreRequest_alarm
  | acknowledge =>
    refine ⟨acknowledgeRequest_alarm.1, fun hm hne => .inl ?_⟩
    exact (congrArg Pass.mode (acknowledgeRequest_alarm.2 fun h => hne h rfl)).trans hm
  | passReset => exact kept (.of_pass (passResetRequest_elsewhere fun h => (h1 h).1 rfl))
  | surveyLoad => exact kept surveyRequest_alarm
  | clearFlags => exact kept clearFlagsRequest_alarm
  | timeSet => exact kept (.of_passes rfl)
  | deviceReset => exact kept (.of_passes rfl)

end modes

/-! ### What becomes of a command -/

section commands

variable {s u : State} {c : Instr} {p : PassId} {port : PortId} {t : Telegram} {f : Fate}

/-- A command that is neither start-up nor a request. -/
def Ordinary (s u : State) : Prop := Framed s u ∧ ∀ q, Worsens (s.pass q).mode (u.pass q).mode

theorem Ordinary.refl' : Ordinary s s := ⟨.refl', fun _ => .refl'⟩

theorem Ordinary.trans {w : State} (h : Ordinary s u) (h' : Ordinary u w) : Ordinary s w :=
  ⟨h.1.trans h'.1, fun q => (h.2 q).trans (h'.2 q)⟩

theorem Acted.ordinary (h : Acted p s u) : Ordinary s u := ⟨h.framed, h.modes⟩

theorem Ordinary.of_rest (silence : Option Nat) (time : Word) (traffic : Traffic) (rp : Bool) :
    Ordinary s { s with silence := silence, time := time, traffic := traffic, resetPending := rp } :=
  ⟨.of_rest silence time traffic rp, fun _ => .refl'⟩

theorem Ordinary.onTraffic (g : View → Traffic → Traffic) : Ordinary s (s.onTraffic g) :=
  .of_rest s.silence s.time _ s.resetPending

theorem heard_ordinary : Ordinary s (heard port s) := ⟨heard_framed, fun q => .inl (by rw [heard_pass])⟩

theorem takeBroadcast_ordinary : Ordinary s (s.takeBroadcast port t) := by
  unfold State.takeBroadcast
  simp only
  split
  · exact (Ordinary.onTraffic _).trans (.of_rest _ _ _ _)
  · exact .onTraffic _

theorem refuseAtField_ordinary : Ordinary s (s.refuseAtField t) := .onTraffic _

theorem relayFrom_ordinary : Ordinary s (s.relayFrom port t) := .onTraffic _

theorem takeCommand_ordinary {a : Actuator} : Ordinary s (s.takeCommand a t) := .onTraffic _

theorem reportDealt_ordinary (hit : Hit) : Ordinary s ((reportEffect hit.role hit t s).relayApplied hit t) :=
  ((reportEffect_acted hit t hit.role).append
    (.of_mode (relayApplied_within hit t) (by rw [State.relayApplied_pass]))).ordinary

/-- A telegram that is no request does no more than report, command and relay. -/
theorem deal_ordinary (hne : ∀ r, f ≠ .request r) : Ordinary s (deal port t s f) := by
  cases f with
  | badCheck => exact .refl'
  | discarded => exact .refl'
  | badAddress => exact heard_ordinary
  | ownOther => exact heard_ordinary
  | broadcast => exact heard_ordinary.trans takeBroadcast_ordinary
  | refusedPort => exact heard_ordinary.trans refuseAtField_ordinary
  | relay => exact heard_ordinary.trans relayFrom_ordinary
  | command a => exact heard_ordinary.trans takeCommand_ordinary
  | report hit => exact heard_ordinary.trans (reportDealt_ordinary hit)
  | request r => exact absurd rfl (hne r)

theorem instr_cases (c : Instr) : (∃ port t, arrival c = some (port, t)) ∨ c = .powerOn ∨ (∃ port, c = .lineFree port)
    ∨ (∃ order, c = .lineSilenceExpiry order) ∨ (∃ p, c = .sampleStale p) ∨ (∃ a, c = .holdExpiry a)
      ∨ ∃ a, c = .deadlineExpiry a := by
  cases c <;> simp [arrival]

theorem lineSilence_ordinary (order : List PassId) : Ordinary s (s.silenceRunsOut order) := by
  unfold State.silenceRunsOut
  split
  · exact .refl'
  · exact (Ordinary.of_rest none s.time s.traffic s.resetPending).trans
      (List.foldlRecOn (motive := Ordinary { s with silence := none }) _ _ .refl' fun w hw q _ =>
        hw.trans tripCause_acted.ordinary)

theorem staleSample_acted : Acted p s (s.staleSample p) := by
  unfold State.staleSample
  simp only
  split
  · exact .refl'
  · exact (setPass_acted (by rfl)).append (evaluate_acted _ _)

theorem deadlineRunsOut_acted {a : Actuator} : Acted a.pass s (s.deadlineRunsOut a) := by
  unfold State.deadlineRunsOut
  split
  · exact .refl'
  · exact failAction_acted (by rw [issuedEntry_actuator ‹_›])

theorem timer_ordinary (h : (∃ order, c = .lineSilenceExpiry order) ∨ (∃ p, c = .sampleStale p) ∨ (∃ a, c = .holdExpiry a)
    ∨ ∃ a, c = .deadlineExpiry a) : ∃ g, Expires c g ∧ ∀ s, Ordinary s (g s) := by
  obtain ⟨order, rfl⟩ | ⟨p, rfl⟩ | ⟨a, rfl⟩ | ⟨a, rfl⟩ := h
  · exact ⟨_, lineSilence_expires order, fun _ => lineSilence_ordinary order⟩
  · exact ⟨_, sampleStale_expires p, fun _ => staleSample_acted.ordinary⟩
  · exact ⟨_, holdExpiry_expires a, fun _ => .onTraffic _⟩
  · exact ⟨_, deadlineExpiry_expires a, fun _ => deadlineRunsOut_acted.ordinary⟩

theorem settleReset_cases : s.settleReset = s ∨ s.settleReset = s.startUp .commanded := by
  unfold State.settleReset
  split
  · exact .inr rfl
  · exact .inl rfl

theorem lineFree_cases (port : PortId) (s : State) : ∃ u, exec (.lineFree port) s = .next u
    ∧ (u = s.startUp .commanded ∨ Ordinary s u) := by
  cases port with
  | control =>
    refine ⟨_, rfl, ?_⟩
    unfold State.controlLineFree
    split
    · exact .inr .refl'
    · split
      · exact .inl rfl
      · exact .inr (.onTraffic _)
  | field =>
    refine ⟨_, rfl, .inr ?_⟩
    unfold State.fieldLineFree
    split
    · exact .refl'
    · exact .onTraffic _

/-- Every command starts the part up, is ordinary, or is a request received on the Control Port. -/
theorem exec_cases (c : Instr) (s : State) : ∃ u, exec c s = .next u
    ∧ ((∃ cause, startedUp cause s u) ∨ Ordinary s u
      ∨ ∃ t, arrival c = some (.control, t)
          ∧ u = respond t (requestOf t).isReset (requestReply (requestOf t) t (heard .control s))) := by
  obtain ⟨port, t, hc⟩ | rfl | ⟨port, rfl⟩ | hc := instr_cases c
  · refine ⟨_, exec_arrival hc, .inr ?_⟩
    by_cases hr : ∃ r, fate port t s = .request r
    · obtain ⟨r, hr⟩ := hr
      obtain ⟨rfl, rfl, -⟩ := fate_request hr
      exact .inr ⟨t, hc, by rw [receive, hr]; rfl⟩
    · exact .inl (deal_ordinary fun r hf => hr ⟨r, hf⟩)
  · exact ⟨s.startUp .powerOn, rfl, .inl ⟨.powerOn, startUp_startedUp⟩⟩
  · obtain ⟨u, hu, hs | h⟩ := lineFree_cases port s
    · exact ⟨u, hu, .inl ⟨.commanded, by rw [hs]; exact startUp_startedUp⟩⟩
    · exact ⟨u, hu, .inr (.inl h)⟩
  · obtain ⟨g, ⟨hexec, -, hbase⟩, hord⟩ := timer_ordinary hc
    refine ⟨_, hexec s, ?_⟩
    obtain h | h := settleReset_cases (s := g s) <;> rw [h]
    · exact .inr (.inl (hord s))
    · rw [startUp_congr (hbase s)]
      exact .inl ⟨.commanded, startUp_startedUp⟩

theorem respond_ordinary {b : Bool} {y : Reply} : Ordinary y.state (respond t b y) := .onTraffic _

/-- What every request leaves of the model's own fields, the tables and the bar. -/
def RequestKept (s u : State) : Prop :=
  u.pending = s.pending ∧ u.draws = s.draws ∧ TablesKept s u ∧ (s.bar = true → u.bar = true)

theorem RequestKept.of_tables (h1 : u.pending = s.pending) (h2 : u.draws = s.draws) (h3 : u.tables = s.tables)
    (h4 : s.bar = true → u.bar = true) : RequestKept s u := ⟨h1, h2, .of_eq h3, h4⟩

theorem RequestKept.of_framed (h : Framed s u) : RequestKept s u := ⟨h.pending, h.draws, h.tables, fun hb => h.bar.trans hb⟩

theorem isolatePass_kept : RequestKept s (s.isolatePass p) := by
  unfold State.isolatePass
  exact ⟨rfl, rfl, ⟨fun _ _ => ⟨rfl, rfl, rfl, rfl⟩, fun _ => ⟨rfl, rfl, rfl⟩⟩, id⟩

theorem isolateConfirm_kept : RequestKept s (isolateConfirm t s).state := by
  obtain e | e | e | ⟨p, -, -, e⟩ := isolateConfirm_cases (t := t) (s := s) <;> rw [e]
  · exact .of_tables rfl rfl rfl id
  · exact .of_tables rfl rfl rfl fun _ => rfl
  · exact .of_tables rfl rfl rfl id
  · exact isolatePass_kept (s := { s with pendingIsolation := none })

theorem isolateRequest_requestKept : RequestKept s (isolateRequest t s).state := by
  obtain ⟨-, hp, hd, ht, hb⟩ := isolateRequest_kept (tl := t) (s := s)
  exact .of_tables hp hd ht fun h => hb.trans h

theorem requestReply_kept (r : Request) : RequestKept s (requestReply r t s).state := by
  by_cases h1 : r = .isolateRequest
  · rw [h1]
    exact isolateRequest_requestKept
  by_cases h2 : r = .isolateConfirm
  · rw [h2]
    exact isolateConfirm_kept
  · exact .of_framed (requestReply_framed h1 h2)

end commands

/-- Settles O5, by what becomes of a command. -/
theorem everyCommandAnswers : Obligations.EveryCommandAnswers := by
  intro c s
  obtain ⟨u, hu, ⟨cause, h, -⟩ | h | ⟨t, -, rfl⟩⟩ := exec_cases c s
  · exact ⟨u, hu, by rw [h], by rw [h]⟩
  · exact ⟨u, hu, h.1.pending, h.1.draws⟩
  · obtain ⟨hp, hd, -, -⟩ := requestReply_kept (s := heard .control s) (t := t) (requestOf t)
    exact ⟨_, hu, hp, hd⟩

/-- Settles O48: start-up keeps the tables, and a request writes out of service alone. -/
theorem tablesChangeOutOfServiceOnly : Obligations.TablesChangeOutOfServiceOnly := by
  intro c s u hu
  obtain ⟨w, hw, h⟩ := exec_cases c s
  obtain rfl : w = u := Host.Outcome.next.inj (hw.symm.trans hu)
  obtain ⟨cause, h, -⟩ | h | ⟨t, -, rfl⟩ := h
  · exact TablesKept.of_eq (by rw [h])
  · exact h.1.tables
  · obtain ⟨-, -, ht, -⟩ := requestReply_kept (s := heard .control s) (t := t) (requestOf t)
    exact ht

/-- Settles O49: causes alone move an alarmed pass, but for the requests named. -/
theorem alarmedPassesStay : Obligations.AlarmedPassesStay := by
  intro c s u p hu hnot hreq
  obtain ⟨w, hw, h⟩ := exec_cases c s
  obtain rfl : w = u := Host.Outcome.next.inj (hw.symm.trans hu)
  obtain ⟨cause, h⟩ | h | ⟨t, hc, rfl⟩ := h
  · exact absurd h (hnot cause)
  · exact ⟨(h.2 p).tripped, fun hm _ => (h.2 p).alert hm⟩
  · obtain ⟨htripped, halert⟩ := requestReply_alarm (s := heard .control s) (q := p) (r := requestOf t) (hreq t hc)
    exact ⟨htripped, fun hm hack => halert hm (hack t hc)⟩

/-- Settles O50: of the requests only those of the isolation sequence touch its registers. -/
theorem isolationRegistersStand : Obligations.IsolationRegistersStand := by
  intro c s u hu hnot
  obtain ⟨w, hw, h⟩ := exec_cases c s
  obtain rfl : w = u := Host.Outcome.next.inj (hw.symm.trans hu)
  obtain ⟨cause, h⟩ | h | ⟨t, hc, rfl⟩ := h
  · exact absurd h (hnot cause)
  · exact ⟨fun hb => h.1.bar.trans hb, fun _ => ⟨h.1.isolation, h.1.bar⟩⟩
  · obtain ⟨-, -, -, hbar⟩ := requestReply_kept (s := heard .control s) (t := t) (requestOf t)
    refine ⟨hbar, fun hreq => ?_⟩
    obtain ⟨h1, h2⟩ := hreq t hc
    have hframed := requestReply_framed (s := heard .control s) (t := t) h1 h2
    exact ⟨hframed.isolation, hframed.bar⟩

end Sys2Proof.Machine

/-! The arithmetic of the column: draws with the residue rule (R40 to R42), tips (R36 to R38) and grizzly clears (R39). -/

namespace Sys2Proof.Machine

/-! ### Draws -/

section draws

variable {r d : Nat} {now : Word} {x : Charge} {pre rest merged above : List Charge} {c : Column}

theorem takeFrom_head : ∀ {pre : List Charge} {d : Nat}, (pre.map Charge.remaining).sum ≤ d →
    d < (pre.map Charge.remaining).sum + x.remaining →
    takeFrom d (pre ++ x :: above) = ({ x with remaining := x.remaining - (d - (pre.map Charge.remaining).sum) } :: above, 0)
  | [], d, _, hd => by
    have hlt : d < x.remaining := by simpa using hd
    simp [takeFrom, hlt]
  | y :: ys, d, hle, hd => by
    simp only [List.map_cons, List.sum_cons] at hle hd ⊢
    have hy : ¬d < y.remaining := by omega
    have hsub : d - (y.remaining + (ys.map Charge.remaining).sum) = d - y.remaining - (ys.map Charge.remaining).sum := by omega
    rw [List.cons_append, takeFrom, if_neg hy, takeFrom_head (by omega) (by omega), hsub]

theorem takeFrom_all : ∀ {l : List Charge} {d : Nat}, (l.map Charge.remaining).sum ≤ d →
    takeFrom d l = ([], d - (l.map Charge.remaining).sum)
  | [], d, _ => rfl
  | y :: ys, d, hle => by
    simp only [List.map_cons, List.sum_cons] at hle ⊢
    have hy : ¬d < y.remaining := by omega
    rw [takeFrom, if_neg hy, takeFrom_all (by omega), Nat.sub_sub]

/-- R42: one merge of the residue rule: the head, with the excess so far, goes into the charge above it. -/
def mergedUp (now : Word) (head : Charge × Nat) (n : Charge) : Charge × Nat :=
  (n.absorb now head.1.remaining head.1.wetness head.1.oversize, head.2 + excessOf (n.remaining + head.1.remaining))

/-- The excess so far adds to that of the merges to come. -/
theorem foldl_mergedUp_excess : ∀ (l : List Charge) (h : Charge) (n : Nat),
    l.foldl (mergedUp now) (h, n) = ((l.foldl (mergedUp now) (h, 0)).1, n + (l.foldl (mergedUp now) (h, 0)).2)
  | [], _, _ => rfl
  | y :: ys, h, n => by
    simp only [List.foldl_cons]
    have key := fun k => foldl_mergedUp_excess ys (y.absorb now h.remaining h.wetness h.oversize) k
    unfold mergedUp at key ⊢
    rw [key, key (0 + _)]
    simp [Nat.add_assoc]

/-- R41: the rule stops at a charge of the threshold or more, or at the top. -/
theorem residueRule_stop {head : Charge} (h : r ≤ head.remaining ∨ rest = []) : residueRule r now head rest = (head :: rest, 0) := by
  cases rest with
  | nil => rfl
  | cons y ys =>
    have hr : ¬head.remaining < r := Nat.not_lt.mpr (h.resolve_right (List.cons_ne_nil y ys))
    rw [residueRule, if_neg hr]

theorem residueRule_eq : ∀ {merged : List Charge} {head : Charge},
    (∀ k, k < merged.length → ((merged.take k).foldl (mergedUp now) (head, 0)).1.remaining < r) →
    r ≤ (merged.foldl (mergedUp now) (head, 0)).1.remaining ∨ rest = [] →
    residueRule r now head (merged ++ rest)
      = ((merged.foldl (mergedUp now) (head, 0)).1 :: rest, (merged.foldl (mergedUp now) (head, 0)).2)
  | [], _, _, hstop => residueRule_stop hstop
  | y :: ys, head, hlow, hstop => by
    have hhead : head.remaining < r := hlow 0 (Nat.zero_lt_succ _)
    have hfold : ∀ l, ((y :: l).foldl (mergedUp now) (head, 0))
        = ((l.foldl (mergedUp now) (y.absorb now head.remaining head.wetness head.oversize, 0)).1,
            excessOf (y.remaining + head.remaining)
              + (l.foldl (mergedUp now) (y.absorb now head.remaining head.wetness head.oversize, 0)).2) := fun l => by
      rw [List.foldl_cons, mergedUp, foldl_mergedUp_excess, Nat.zero_add]
    rw [hfold] at hstop ⊢
    have hys := residueRule_eq (merged := ys) (head := y.absorb now head.remaining head.wetness head.oversize)
      (fun k hk => by
        have hk' := hlow (k + 1) (Nat.succ_lt_succ hk)
        rwa [List.take_succ_cons, hfold] at hk') hstop
    rw [List.cons_append, residueRule, if_pos hhead, hys, Nat.add_comm]

/-- R40 to R42: a draw that leaves a charge. -/
theorem draw_head (hc : c.charges = pre ++ x :: (merged ++ rest)) (hle : (pre.map Charge.remaining).sum ≤ d)
    (hlt : d < (pre.map Charge.remaining).sum + x.remaining) {head : Charge}
    (hhead : head = { x with remaining := x.remaining - (d - (pre.map Charge.remaining).sum) })
    (hlow : ∀ k, k < merged.length → ((merged.take k).foldl (mergedUp now) (head, 0)).1.remaining < r)
    (hstop : r ≤ (merged.foldl (mergedUp now) (head, 0)).1.remaining ∨ rest = []) :
    c.draw r now d =
      (Column.spilled { c with drawn := addTotal c.drawn d, charges := (merged.foldl (mergedUp now) (head, 0)).1 :: rest }
          (merged.foldl (mergedUp now) (head, 0)).2,
        decide (0 < (merged.foldl (mergedUp now) (head, 0)).2), false) := by
  unfold Column.draw
  rw [hc, takeFrom_head hle hlt, ← hhead]
  simp only
  rw [residueRule_eq hlow hstop]

/-- R40: a draw of the whole column or more. -/
theorem draw_all (hle : (c.charges.map Charge.remaining).sum ≤ d) : c.draw r now d =
    ({ c with drawn := addTotal c.drawn d, charges := []
              shortfall := addTotal c.shortfall (d - (c.charges.map Charge.remaining).sum) }, false,
      decide (0 < d - (c.charges.map Charge.remaining).sum)) := by
  unfold Column.draw
  rw [takeFrom_all hle]

end draws

/-- Settles O54, by induction on the charges merged. -/
theorem drawTakesFromTheHead : Obligations.DrawTakesFromTheHead := by
  intro c r d now total drawn mergeUp
  have hmerge : mergeUp = mergedUp now := funext₂ fun head n => by
    cases n
    rename_i merge
    cases merge <;> rfl
  refine ⟨?_, fun hle => ?_⟩
  · intro pre x merged rest hc hle hlt after last hlow hstop
    simp only [last, after, hmerge, List.take_length] at hlow hstop ⊢
    exact draw_head hc hle hlt rfl hlow hstop
  · rw [draw_all hle]
    simp only [Nat.sub_pos_iff_lt]
    rfl

/-! ### Placing -/

section placing

variable {m : Rounding} {now : Word} {q p s : Nat} {w : Wetness} {b : Bool} {top : Charge} {c : Column} {t : TipId} {origin : Origin}

/-- R38: a plain tonnage merged into a charge. -/
theorem absorb_eq : top.absorb now q w false =
    { top with
      remaining := min (top.remaining + q) Config.tonnageCeiling
      placed := min (top.placed + q) Config.tonnageCeiling
      wetness := if top.wetness.code < w.code then w else top.wetness
      merge := some
        { count := match top.merge with
            | none => 1
            | some r => min (r.count + 1) Config.countCeiling
          latest := now } } := by
  unfold Charge.absorb
  rw [Bool.or_false]
  cases top.merge <;> rfl

theorem mergeTop_top : ∀ pre : List Charge,
    mergeTop now q w b (pre ++ [top]) = (pre ++ [top.absorb now q w b], excessOf (top.remaining + q))
  | [] => rfl
  | [y] => rfl
  | y :: z :: ys => by
    have h := mergeTop_top (z :: ys)
    simp only [List.cons_append] at h ⊢
    rw [mergeTop, h]

theorem place_room (h : c.charges.length < 48) : c.place now origin w b q = (c.append now origin w b q, false) := if_pos h

theorem place_full {pre : List Charge} (hc : c.charges = pre ++ [top]) (h : c.charges.length = 48) :
    c.place now origin w b q =
      (Column.spilled { c with charges := pre ++ [top.absorb now q w b] } (excessOf (top.remaining + q)),
        decide (0 < excessOf (top.remaining + q))) := by
  have hfull : ¬c.charges.length < Config.columnCapacity := by
    show ¬c.charges.length < 48
    omega
  unfold Column.place
  rw [if_neg hfull, hc, mergeTop_top]

/-- R49: a total that takes an excess twice takes their sum. -/
theorem addTotal_addTotal (n i k : Nat) : addTotal (addTotal n i) k = addTotal n (i + k) := by
  unfold addTotal
  omega

/-- R35: the oversize joins the accumulator, and what it cannot hold is Spill. -/
theorem accumulate_eq : c.accumulate t q w =
    ({ c with
        accums := c.accums.set t
          { tonnage := (c.accums.get t).tonnage + min q (Config.tonnageCeiling - (c.accums.get t).tonnage)
            wetness := (c.accums.get t).wetness.wetter w }
        spill := addTotal c.spill (q - min q (Config.tonnageCeiling - (c.accums.get t).tonnage)) },
      decide (min q (Config.tonnageCeiling - (c.accums.get t).tonnage) < q)) := by
  unfold Column.accumulate
  simp only [Nat.sub_pos_iff_lt]
  rfl

/-- R36, R37: what a tip leaves of its charges. -/
def fines (now : Word) (t : TipId) (w : Wetness) (f : Nat) (c : Column) : Column × Bool :=
  if f = 0 then (c, false) else c.place now (.tip t) w false f

/-- R35, R36: what a tip leaves of its accumulator. -/
def bars (t : TipId) (w : Wetness) (o : Nat) (c : Column) : Column × Bool := if o = 0 then (c, false) else c.accumulate t o w

theorem tip_eq : c.tip m now t p w s =
    let placed := fines now t w (p - oversizeOf m p s) { c with tipped := addTotal c.tipped p }
    ((bars t w (oversizeOf m p s) placed.1).1, placed.2 || (bars t w (oversizeOf m p s) placed.1).2) := rfl

theorem bars_eq (h : c.spill ≤ Config.totalCeiling) : bars t w q c =
    ({ c with
        accums := if q = 0 then c.accums else c.accums.set t
          { tonnage := (c.accums.get t).tonnage + min q (Config.tonnageCeiling - (c.accums.get t).tonnage)
            wetness := (c.accums.get t).wetness.wetter w }
        spill := addTotal c.spill (q - min q (Config.tonnageCeiling - (c.accums.get t).tonnage)) },
      decide (min q (Config.tonnageCeiling - (c.accums.get t).tonnage) < q)) := by
  unfold bars
  by_cases hq : q = 0
  · subst hq
    have hspill : addTotal c.spill (0 - min 0 (Config.tonnageCeiling - (c.accums.get t).tonnage)) = c.spill := by
      unfold addTotal
      omega
    rw [if_pos rfl, if_pos rfl, hspill]
    simp
  · rw [if_neg hq, if_neg hq, accumulate_eq]

theorem tip_of_fines {placed : Column} {e : Bool}
    (h : fines now t w (p - oversizeOf m p s) { c with tipped := addTotal c.tipped p } = (placed, e))
    (hspill : placed.spill ≤ Config.totalCeiling) : c.tip m now t p w s =
      ({ placed with
          accums := if oversizeOf m p s = 0 then placed.accums else placed.accums.set t
            { tonnage := (placed.accums.get t).tonnage + min (oversizeOf m p s) (Config.tonnageCeiling - (placed.accums.get t).tonnage)
              wetness := (placed.accums.get t).wetness.wetter w }
          spill := addTotal placed.spill
            (oversizeOf m p s - min (oversizeOf m p s) (Config.tonnageCeiling - (placed.accums.get t).tonnage)) },
        e || decide (min (oversizeOf m p s) (Config.tonnageCeiling - (placed.accums.get t).tonnage) < oversizeOf m p s)) := by
  rw [tip_eq]
  simp only [h]
  rw [bars_eq hspill]

theorem fines_room (hs : s ≤ 100) (h : c.charges.length < 48) : fines now t w (p - oversizeOf m p s) c =
    ({ c with
        charges := if oversizeOf m p s = p then c.charges
          else c.charges ++
            [{ number := c.counter, origin := .tip t, placed := p - oversizeOf m p s, remaining := p - oversizeOf m p s
               wetness := w, oversize := false, placedAt := now, merge := none }]
        counter := if oversizeOf m p s = p then c.counter else c.counter + 1 }, false) := by
  have hle := oversizeOf_le m p s hs
  unfold fines
  by_cases ho : oversizeOf m p s = p
  · rw [if_pos (by omega), if_pos ho, if_pos ho]
  · rw [if_neg (by omega), if_neg ho, if_neg ho, place_room h]
    rfl

theorem fines_full (hs : s ≤ 100) (hspill : c.spill ≤ Config.totalCeiling) {pre : List Charge}
    (hc : c.charges = pre ++ [top]) (h : c.charges.length = 48) {e : Nat}
    (he : e = if oversizeOf m p s = p then 0 else excessOf (top.remaining + (p - oversizeOf m p s))) :
    fines now t w (p - oversizeOf m p s) c =
      ({ c with
          charges := if oversizeOf m p s = p then c.charges
            else pre ++ [top.absorb now (p - oversizeOf m p s) w false]
          spill := addTotal c.spill e }, decide (0 < e)) := by
  have hle := oversizeOf_le m p s hs
  unfold fines
  by_cases ho : oversizeOf m p s = p
  · have hkept : addTotal c.spill 0 = c.spill := by
      unfold addTotal
      omega
    rw [if_pos (by omega), he, if_pos ho, if_pos ho, hkept]
    rfl
  · rw [if_neg (by omega), he, if_neg ho, if_neg ho, place_full hc h]
    rfl

end placing

/-- Settles O55: the fines are placed, then the oversize joins its accumulator. -/
theorem tipSplitsItsPayload : Obligations.TipSplitsItsPayload := by
  intro c m now t p s w o a kept accums hspill hs hp
  refine ⟨fun hroom => ?_, ?_⟩
  · exact tip_of_fines (fines_room (c := { c with tipped := addTotal c.tipped p }) hs hroom) hspill
  · intro pre top hc hfull e
    have htip := tip_of_fines (m := m) (w := w) (t := t)
      (fines_full (c := { c with tipped := addTotal c.tipped p }) (now := now) hs hspill hc hfull (e := e) rfl)
      (Nat.min_le_right _ _)
    simp only [addTotal_addTotal] at htip
    rw [htip, Bool.decide_or, Nat.add_assoc, absorb_eq]
    cases top.merge <;> rfl

end Sys2Proof.Machine

/-! What the control side hears through an event: which notices it raises (R165), and that an announced notice stays
announced while others follow. -/

namespace Sys2Proof.Machine

/-! ### The steps of the control side -/

/-- What an event does at the Control Port: its queue changes, its arbiter looks at the line, a notice is raised; `ok` says
which notices of a pass it raises. -/
inductive CtlStep (tb : Tables) (ok : NoticeSource → NoticeClass → Nat → Prop) : ControlSide → ControlSide → Prop
  | queued (c : ControlSide) (l : List Queued) (b : Bool) :
      CtlStep tb ok c { c with port := { c.port with queue := l, overrun := b } }
  | arbitrated (c : ControlSide) : CtlStep tb ok c (c.arbitrate tb.device)
  | raised (c : ControlSide) (src : NoticeSource) (cls : NoticeClass) (k n : Nat) : 0 < k →
      ok src cls n ∨ src = .device → CtlStep tb ok c (c.raiseMany tb src cls k n)

/-- A run of them. -/
def CtlSteps (tb : Tables) (ok : NoticeSource → NoticeClass → Nat → Prop) : ControlSide → ControlSide → Prop :=
  Relation.ReflTransGen (CtlStep tb ok)

section steps

variable {tb : Tables} {ok ok' : NoticeSource → NoticeClass → Nat → Prop} {b c d : ControlSide} {x : Sending} {e : NoticeEntry}
  {src : NoticeSource} {cls : NoticeClass} {k n : Nat}

theorem ControlSide.arbitrate_quiet {dev : DeviceParams} (h : (c.arbitrate dev).port.sending = none) :
    (c.arbitrate dev).notices = [] := by
  have hchosen : ∀ {f : Queued → Bool} {p : Port}, c.port.choose f = some p → p.sending ≠ none := fun hp => by
    obtain ⟨y, -, -, rfl⟩ := Port.choose_eq_some hp
    exact Option.some_ne_none _
  have hsent : ∀ {f : NoticeEntry → Bool} {c' : ControlSide}, c.sendNotice dev f = some c' → c'.port.sending ≠ none :=
    fun hc => by
      obtain ⟨y, -, -, rfl⟩ := ControlSide.sendNotice_eq_some hc
      exact Option.some_ne_none _
  unfold ControlSide.arbitrate at h ⊢
  split at h
  · rename_i hx
    rw [hx] at h
    cases h
  · split at h
    · exact absurd h (hchosen ‹_›)
    · split at h
      · exact absurd h (hsent ‹_›)
      · split at h
        · exact absurd h (hchosen ‹_›)
        · cases hs : c.sendNotice dev fun _ => true with
          | some c' =>
            rw [hs] at h
            exact absurd h (hsent hs)
          | none =>
            show c.notices = []
            cases hn : c.notices with
            | nil => rfl
            | cons e es => simp [ControlSide.sendNotice, hn] at hs

theorem ControlSide.arbitrate_subset {dev : DeviceParams} : (c.arbitrate dev).notices ⊆ c.notices := by
  refine ControlSide.arbitrate_keeps (P := fun d => d.notices ⊆ c.notices) (fun f p hp => fun _ h => h) (fun f c' hc => ?_)
    fun _ h => h
  obtain ⟨e, -, -, rfl⟩ := ControlSide.sendNotice_eq_some hc
  exact List.eraseP_subset

theorem CtlStep.busy (h : CtlStep tb ok c d) (hx : c.port.sending = some x) : d.port.sending = some x := by
  cases h with
  | queued => exact hx
  | arbitrated =>
    rw [ControlSide.arbitrate_busy hx]
    exact hx
  | raised => exact ControlSide.raiseMany_sending hx

/-- On a busy line an entry of the list stays, or a raise of its source and class bumps it. -/
theorem CtlStep.keeps (h : CtlStep tb ok c d) (hx : c.port.sending = some x) (he : e ∈ c.notices) :
    e ∈ d.notices ∨ ∃ k n, e.bump k n ∈ d.notices ∧ 0 < k ∧ (ok e.source e.cls n ∨ e.source = .device) := by
  cases h with
  | queued => exact .inl he
  | arbitrated =>
    rw [ControlSide.arbitrate_busy hx]
    exact .inl he
  | raised src cls k n hk hok =>
    obtain h | h | ⟨-, h⟩ := c.raiseMany_cases tb src cls k n <;> rw [h]
    · exact .inl he
    · by_cases hf : e.isFor src cls = true
      · obtain ⟨rfl, rfl⟩ := NoticeEntry.isFor_iff.mp hf
        exact .inr ⟨k, n, List.mem_map.mpr ⟨e, he, if_pos hf⟩, hk, hok⟩
      · exact .inl (List.mem_map.mpr ⟨e, he, if_neg hf⟩)
    · rw [ControlSide.arbitrate_busy (by exact hx)]
      exact .inl (List.mem_append_left _ he)

/-- A line that was idle with nothing to notify takes the first thing that comes. -/
theorem CtlStep.quiet (h : CtlStep tb ok c d) (hn : c.notices = []) :
    (∃ x, d.port.sending = some x) ∨ d.notices = [] := by
  have harbitrated : ∀ c' : ControlSide, (∃ x, (c'.arbitrate tb.device).port.sending = some x)
      ∨ (c'.arbitrate tb.device).notices = [] := fun c' => by
    cases hs : (c'.arbitrate tb.device).port.sending with
    | some x => exact .inl ⟨x, rfl⟩
    | none => exact .inr (ControlSide.arbitrate_quiet hs)
  cases h with
  | queued => exact .inr hn
  | arbitrated => exact harbitrated c
  | raised src cls k n =>
    obtain h | h | ⟨-, h⟩ := c.raiseMany_cases tb src cls k n <;> rw [h]
    · exact .inr hn
    · exact .inr (by rw [hn]; rfl)
    · exact harbitrated _

theorem CtlSteps.mono (hok : ∀ src cls n, ok src cls n → ok' src cls n) (h : CtlSteps tb ok c d) : CtlSteps tb ok' c d := by
  refine Relation.ReflTransGen.mono (fun a b hab => ?_) _ _ h
  cases hab with
  | queued => exact .queued _ _ _
  | arbitrated => exact .arbitrated _
  | raised _ _ _ _ hk hr => exact .raised _ _ _ _ _ hk (hr.imp_left (hok _ _ _))

theorem CtlSteps.one (h : CtlStep tb ok c d) : CtlSteps tb ok c d := .single h

theorem ControlSide.raiseOverrun_steps (n : Nat) : CtlSteps tb ok c (c.raiseOverrun tb n) :=
  .one (.raised c .device .overrun 1 n Nat.one_pos (.inr rfl))

theorem ControlSide.place_steps (q : Queued) : CtlSteps tb ok c (c.place tb q) := by
  have hqueued : CtlSteps tb ok c _ :=
    .one (.queued c (enqueue q c.port.queue).1 (c.port.overrun || (enqueue q c.port.queue).2))
  unfold ControlSide.place
  simp only
  split
  · exact (hqueued.trans (ControlSide.raiseOverrun_steps 0)).trans (.single (.arbitrated _))
  · exact hqueued.trans (.single (.arbitrated _))

end steps

/-! ### Announcements -/

section announcements

variable {tb : Tables} {ok : NoticeSource → NoticeClass → Nat → Prop} {c c₁ d : ControlSide} {p : PassId}
  {cls : NoticeClass} {D : Nat → Prop} {k n : Nat}

/-- Between `c` and `d` no notice of the source and class was lost that the line did not take. -/
def Onward (p : PassId) (cls : NoticeClass) (c d : ControlSide) : Prop :=
  (∀ x, c.port.sending = some x → d.port.sending = some x ∧ ∀ old ∈ c.notices, old.source = .pass p → old.cls = cls →
      ∃ e ∈ d.notices, e.source = .pass p ∧ e.cls = cls ∧ (old.count ≤ e.count ∨ e.count = Config.countCeiling))
    ∧ (c.port.sending = none → c.notices = [] → (∃ x, d.port.sending = some x) ∨ d.notices = [])

/-- Between `c` and `d` a notice was raised whose latest detail is one of `D`. -/
def Heard (tb : Tables) (p : PassId) (cls : NoticeClass) (D : Nat → Prop) (c d : ControlSide) : Prop :=
  (∀ x, c.port.sending = some x → d.port.sending = some x
      ∧ ∃ e ∈ d.notices, e.source = .pass p ∧ e.cls = cls ∧ D e.detail
        ∧ ∀ old ∈ c.notices, old.source = .pass p → old.cls = cls → old.count < e.count ∨ e.count = Config.countCeiling)
    ∧ (c.port.sending = none → c.notices = [] → (∃ x, d.port.sending = some x)
        ∧ ∃ e : NoticeEntry, e.source = .pass p ∧ e.cls = cls ∧ D e.detail
          ∧ (e ∈ d.notices ∨ ∃ x, d.port.sending = some x ∧ x.tel = noticeTelegram tb.device e))

theorem Onward.refl' : Onward p cls c c :=
  ⟨fun _ hx => ⟨hx, fun old ho hs hc => ⟨old, ho, hs, hc, .inl (Nat.le_refl _)⟩⟩, fun _ hn => .inr hn⟩

theorem Onward.step (h : Onward p cls c c₁) (hs : CtlStep tb ok c₁ d) : Onward p cls c d := by
  refine ⟨fun x hx => ?_, fun hx hn => ?_⟩
  · obtain ⟨hx1, hkeep⟩ := h.1 x hx
    refine ⟨hs.busy hx1, fun old ho hsrc hcls => ?_⟩
    obtain ⟨e, he, hes, hec, hcount⟩ := hkeep old ho hsrc hcls
    obtain he' | ⟨k, n, he', -, -⟩ := hs.keeps hx1 he
    · exact ⟨e, he', hes, hec, hcount⟩
    · refine ⟨_, he', hes, hec, ?_⟩
      simp only [NoticeEntry.bump]
      omega
  · obtain ⟨x, hx1⟩ | hn1 := h.2 hx hn
    · exact .inl ⟨x, hs.busy hx1⟩
    · exact hs.quiet hn1

theorem CtlSteps.onward (h : CtlSteps tb ok c d) : Onward p cls c d := by
  induction h with
  | refl => exact .refl'
  | tail _ hs ih => exact ih.step hs

/-- R165: a raise on a busy line leaves an entry above every one there was. -/
theorem raiseMany_busy_entry (hen : (tb.notices.get cls).enabled = true) (hk : 0 < k) {x : Sending}
    (hx : c.port.sending = some x) : ∃ e ∈ (c.raiseMany tb (.pass p) cls k n).notices, e.source = .pass p ∧ e.cls = cls
      ∧ e.detail = n ∧ e.count ≤ Config.countCeiling ∧ ∀ old ∈ c.notices, old.source = .pass p → old.cls = cls →
          old.count < e.count ∨ e.count = Config.countCeiling := by
  by_cases hany : ∃ y ∈ c.notices, y.source = .pass p ∧ y.cls = cls
  · obtain ⟨y, hy, hys, hyc⟩ := hany
    have hmem : y ∈ (c.notices.filter (NoticeEntry.isFor (.pass p) cls)).toFinset := by
      simp [hy, NoticeEntry.isFor_iff, hys, hyc]
    obtain ⟨e, he, hmax⟩ := Finset.exists_max_image _ NoticeEntry.count ⟨y, hmem⟩
    simp only [List.mem_toFinset, List.mem_filter, NoticeEntry.isFor_iff] at he hmax
    obtain ⟨he, hes, hec⟩ := he
    rw [ControlSide.raiseMany_bump hen hy hys hyc]
    refine ⟨e.bump k n, List.mem_map.mpr ⟨e, he, if_pos (NoticeEntry.isFor_iff.mpr ⟨hes, hec⟩)⟩, hes, hec, rfl,
      Nat.min_le_right _ _,
      fun old ho hos hoc => ?_⟩
    have hle := hmax old ⟨ho, hos, hoc⟩
    simp only [NoticeEntry.bump]
    omega
  · have hnone : ∀ y ∈ c.notices, ¬(y.source = .pass p ∧ y.cls = cls) := fun y hy h => hany ⟨y, hy, h⟩
    rw [ControlSide.raiseMany_busy hen hx hnone]
    exact ⟨_, List.mem_append_right _ (List.mem_singleton_self _), rfl, rfl, rfl, Nat.min_le_right _ _, fun old ho hos hoc =>
      absurd ⟨hos, hoc⟩ (hnone old ho)⟩

/-- R13, R165: a raise on an idle line with nothing to notify is chosen, or waits behind what is. -/
theorem raiseMany_quiet_entry (hen : (tb.notices.get cls).enabled = true) (hn : c.notices = []) :
    (∃ x, (c.raiseMany tb (.pass p) cls k n).port.sending = some x)
      ∧ ∃ e : NoticeEntry, e.source = .pass p ∧ e.cls = cls ∧ e.detail = n
        ∧ (e ∈ (c.raiseMany tb (.pass p) cls k n).notices
          ∨ ∃ x, (c.raiseMany tb (.pass p) cls k n).port.sending = some x ∧ x.tel = noticeTelegram tb.device e) := by
  rw [ControlSide.raiseMany_fresh hen (by simp [hn]), hn, List.nil_append]
  have hchosen : madeNotice tb (.pass p) cls k n
        ∈ (ControlSide.arbitrate tb.device { c with notices := [madeNotice tb (.pass p) cls k n] }).notices
      ∨ ∃ x, (ControlSide.arbitrate tb.device { c with notices := [madeNotice tb (.pass p) cls k n] }).port.sending = some x
          ∧ x.tel = noticeTelegram tb.device (madeNotice tb (.pass p) cls k n) := by
    refine ControlSide.arbitrate_keeps (P := fun d => madeNotice tb (.pass p) cls k n ∈ d.notices
      ∨ ∃ x, d.port.sending = some x ∧ x.tel = noticeTelegram tb.device (madeNotice tb (.pass p) cls k n))
      (fun f q hq => .inl (List.mem_singleton_self _)) (fun f c' hc => .inr ?_) (.inl (List.mem_singleton_self _))
    obtain ⟨e, he, -, rfl⟩ := ControlSide.sendNotice_eq_some hc
    obtain rfl := List.mem_singleton.mp he
    exact ⟨_, rfl, rfl⟩
  refine ⟨?_, _, rfl, rfl, rfl, hchosen⟩
  cases hs : (ControlSide.arbitrate tb.device { c with notices := [madeNotice tb (.pass p) cls k n] }).port.sending with
  | some x => exact ⟨x, rfl⟩
  | none =>
    rw [ControlSide.arbitrate_quiet hs, hs] at hchosen
    obtain h | ⟨x, h, -⟩ := hchosen
    · cases h
    · cases h

theorem Onward.heard (h : Onward p cls c c₁) (hen : (tb.notices.get cls).enabled = true) (hk : 0 < k) (hD : D n) :
    Heard tb p cls D c (c₁.raiseMany tb (.pass p) cls k n) := by
  have hstep : CtlStep tb (fun _ _ _ => True) c₁ (c₁.raiseMany tb (.pass p) cls k n) := .raised _ _ _ _ _ hk (.inl trivial)
  refine ⟨fun x hx => ?_, fun hx hn => ?_⟩
  · obtain ⟨hx1, hkeep⟩ := h.1 x hx
    obtain ⟨e, he, hes, hec, rfl, hle, hcount⟩ := raiseMany_busy_entry (p := p) (n := n) hen hk hx1
    refine ⟨hstep.busy hx1, e, he, hes, hec, hD, fun old ho hos hoc => ?_⟩
    obtain ⟨y, hy, hys, hyc, hold⟩ := hkeep old ho hos hoc
    have hlt := hcount y hy hys hyc
    omega
  · obtain ⟨x, hx1⟩ | hn1 := h.2 hx hn
    · obtain ⟨e, he, hes, hec, rfl, -, -⟩ := raiseMany_busy_entry (p := p) (n := n) hen hk hx1
      exact ⟨⟨x, hstep.busy hx1⟩, e, hes, hec, hD, .inl he⟩
    · obtain ⟨hx1, e, hes, hec, rfl, he⟩ := raiseMany_quiet_entry (p := p) (k := k) (n := n) hen hn1
      exact ⟨hx1, e, hes, hec, hD, he⟩

theorem Heard.step (h : Heard tb p cls D c c₁) (hs : CtlStep tb ok c₁ d) (hD : ∀ n, ok (.pass p) cls n → D n) :
    Heard tb p cls D c d := by
  have hdetail : ∀ {e : NoticeEntry} {n : Nat}, e.source = .pass p → e.cls = cls → ok e.source e.cls n ∨ e.source = .device →
      D n := fun hes hec h => by
    rw [hes, hec] at h
    exact h.elim (hD _) fun h => nomatch h
  refine ⟨fun x hx => ?_, fun hx hn => ?_⟩
  · obtain ⟨hx1, e, he, hes, hec, hDe, hcount⟩ := h.1 x hx
    refine ⟨hs.busy hx1, ?_⟩
    obtain he' | ⟨k, n, he', hk, hok⟩ := hs.keeps hx1 he
    · exact ⟨e, he', hes, hec, hDe, hcount⟩
    · refine ⟨_, he', hes, hec, hdetail hes hec hok, fun old ho hos hoc => ?_⟩
      have hlt := hcount old ho hos hoc
      simp only [NoticeEntry.bump]
      omega
  · obtain ⟨⟨x, hx1⟩, e, hes, hec, hDe, he⟩ := h.2 hx hn
    refine ⟨⟨x, hs.busy hx1⟩, ?_⟩
    obtain he | ⟨y, hy, htel⟩ := he
    · obtain he' | ⟨k, n, he', -, hok⟩ := hs.keeps hx1 he
      · exact ⟨e, hes, hec, hDe, .inl he'⟩
      · exact ⟨e.bump k n, hes, hec, hdetail hes hec hok, .inl he'⟩
    · exact ⟨e, hes, hec, hDe, .inr ⟨y, hs.busy hy, htel⟩⟩

theorem Heard.steps (h : Heard tb p cls D c c₁) (hs : CtlSteps tb ok c₁ d) (hD : ∀ n, ok (.pass p) cls n → D n) :
    Heard tb p cls D c d := by
  induction hs with
  | refl => exact h
  | tail _ hs ih => exact ih.step hs hD

theorem Heard.announced (h : (tb.notices.get cls).enabled = true → Heard tb p cls (· = n) c d) :
    announced tb (.pass p) cls n c d := by
  intro hen
  obtain ⟨hbusy, hidle⟩ := h hen
  exact ⟨fun x hx => (hbusy x hx).2, fun hx hn => (hidle hx hn).2⟩

end announcements

/-! ### What the blocks tell the control side -/

section told

variable {tb : Tables} {v : View} {ok : NoticeSource → NoticeClass → Nat → Prop} {tr tr' tr'' : Traffic} {a : Actuator} {p : PassId}

/-- What an operation on the traffic does at the Control Port. -/
def Told (tb : Tables) (ok : NoticeSource → NoticeClass → Nat → Prop) (tr tr' : Traffic) : Prop := CtlSteps tb ok tr.ctl tr'.ctl

theorem Told.of_eq (h : tr'.ctl = tr.ctl) : Told tb ok tr tr' := by
  unfold Told
  rw [h]
  exact .refl

theorem Told.refl' : Told tb ok tr tr := .of_eq rfl

theorem Told.trans (h : Told tb ok tr tr') (h' : Told tb ok tr' tr'') : Told tb ok tr tr'' := Relation.ReflTransGen.trans h h'

theorem Told.of_ctl (h : Told tb ok tr' tr'') (hc : tr'.ctl = tr.ctl) : Told tb ok tr tr'' := (Told.of_eq hc).trans h

theorem Told.foldl {α : Type} {f : Traffic → α → Traffic} (l : List α) (hf : ∀ x t, Told tb ok t (f t x)) :
    ∀ t, Told tb ok t (l.foldl f t) := by
  induction l with
  | nil => exact fun _ => .refl'
  | cons x xs ih => exact fun t => (hf x t).trans (ih _)

theorem answer_told (r : Requester) (ans : Answer) (reason : Reason) (n : Nat) (tr : Traffic) :
    Told tb ok tr (tr.answer tb r ans reason n) := ControlSide.place_steps _

theorem answerEntry_told (e : ActionEntry) (ans : Answer) (reason : Reason) (n : Nat) (tr : Traffic) :
    Told tb ok tr (tr.answerEntry tb e ans reason n) := by
  unfold Traffic.answerEntry
  split
  · exact answer_told _ _ _ _ _
  · exact .refl'

theorem placeField_told (q : Queued) (tr : Traffic) : Told tb ok tr (tr.placeField tb q) := by
  unfold Told
  rw [Traffic.placeField_ctl]
  split
  · exact ControlSide.raiseOverrun_steps 1
  · exact .refl

theorem issue_told (n : Nat) (tr : Traffic) : Told v.tables ok tr (tr.issue v a n) := by
  obtain h | ⟨cp, e, -, -, h⟩ := tr.issue_cases v a n <;> rw [h]
  · exact .refl'
  · exact (placeField_told _ _).of_ctl rfl

theorem attach_told (e : ActionEntry) (tr : Traffic) : Told v.tables ok tr (tr.attach v a e) := by
  obtain h | ⟨d, tel, -, h⟩ := tr.attach_cases v a e <;> rw [h]
  · exact .refl'
  · exact (placeField_told _ _).of_ctl rfl

theorem cancelWaiting_told (reason : Reason) (tr : Traffic) : Told tb ok tr (tr.cancelWaiting tb a reason) :=
  Told.trans (tr' := { tr with actions := tr.actions.filter fun e => !e.isWaitingFor a }) (.of_eq rfl)
    (.foldl _ (fun _ _ => answerEntry_told _ _ _ _ _) _)

theorem dropFailed_told (tr : Traffic) : Told tb ok tr (tr.dropFailed tb a) :=
  Told.trans (tr' := tr.removeIssued a) (.of_eq rfl) (cancelWaiting_told _ _)

theorem makeRoom_told (tr : Traffic) : Told tb ok tr (tr.makeRoom tb) := by
  unfold Traffic.makeRoom
  split
  · exact .refl'
  · split
    · exact answerEntry_told _ _ _ _ { tr with actions := tr.actions.eraseP ActionEntry.isWaiting }
    · exact .refl'

theorem issueSafe_told (o : Option Requester) (c : Carried) (tr : Traffic) : Told v.tables ok tr (tr.issueSafe v a o c) := by
  unfold Traffic.issueSafe
  exact (makeRoom_told tr).trans ((issue_told 0 _).of_ctl rfl)

theorem takeSafe_told (o : Option Requester) (c : Carried) (tr : Traffic) : Told v.tables ok tr (tr.takeSafe v a o c) := by
  have hcancel : Told v.tables ok tr (tr.cancelWaiting v.tables a .safePreempt) := cancelWaiting_told _ tr
  unfold Traffic.takeSafe
  simp only
  split
  · exact hcancel.trans (issueSafe_told _ _ _)
  · rename_i e he
    split
    · exact hcancel.trans (attach_told _ _)
    · refine hcancel.trans (Told.trans (answerEntry_told e .cancelled .safePreempt 0 _) ?_)
      exact Told.trans (tr' := Traffic.removeIssued a _) (.of_eq rfl) (issueSafe_told _ _ _)

theorem originate_told (tr : Traffic) : Told v.tables ok tr (tr.originate v a) := by
  unfold Traffic.originate
  split
  · exact takeSafe_told _ _ tr
  · exact .refl'

theorem enlist_told (n : Nat) (r : Requester) (c : Carried) (tr : Traffic) : Told v.tables ok tr (tr.enlist v a n r c).1 := by
  unfold Traffic.enlist
  simp only
  split
  · exact .refl'
  · split
    · exact .refl'
    · split
      · exact (issue_told n _).of_ctl rfl
      · exact .of_eq rfl

theorem promoteLine_told (l : List ActionEntry) : ∀ tr : Traffic, Told v.tables ok tr (tr.promoteLine v a l) := by
  induction l with
  | nil => exact fun _ => .refl'
  | cons e es ih =>
    intro tr
    have hissued : ∀ n, Told v.tables ok tr (if n < e.value then (tr.issue v a n).answerEntry v.tables e .clamped
        (judge v tr a e.value).reason n else tr.issue v a n) := fun n => by
      split
      · exact (issue_told n tr).trans (answerEntry_told _ _ _ _ _)
      · exact issue_told n tr
    have hdropped : Told v.tables ok tr (Traffic.promoteLine v a es
        (Traffic.answerEntry v.tables e .cancelled (judge v tr a e.value).reason 0
          { tr with actions := tr.actions.eraseP (ActionEntry.isWaitingFor a) })) :=
      Told.trans (answerEntry_told e .cancelled _ 0 { tr with actions := tr.actions.eraseP (ActionEntry.isWaitingFor a) }) (ih _)
    unfold Traffic.promoteLine
    simp only
    split
    · exact hissued _
    · exact hissued _
    · exact hdropped
    · exact hdropped

theorem confirm_told (tr : Traffic) : Told v.tables ok tr (tr.confirm v a) := by
  unfold Traffic.confirm
  split
  · split
    · unfold Traffic.retire Traffic.promote
      exact (promoteLine_told _ _).of_ctl rfl
    · exact .refl'
  · exact .refl'

theorem rejudge_told (e : HeldEntry) (tr : Traffic) : Told v.tables ok tr (tr.rejudge v e) := by
  have released : ∀ vd, Told v.tables ok tr (tr.release v e vd) := fun vd => by
    have henlist : Told v.tables ok tr ((tr.unpark e.actuator).enlist v e.actuator vd.value e.requester e.carried).1 :=
      Told.trans (tr' := tr.unpark e.actuator) (.of_eq rfl) (enlist_told _ _ _ _)
    unfold Traffic.release
    revert henlist
    split <;> rename_i h <;> rw [h] <;> exact fun henlist => henlist.trans (answer_told _ _ _ _ _)
  unfold Traffic.rejudge
  simp only
  split
  · exact released _
  · exact released _
  · exact answer_told _ _ _ _ (tr.unpark e.actuator)
  · exact .of_eq rfl

theorem round_told (tr : Traffic) : Told v.tables ok tr (tr.round v p) := .foldl _ (fun e t => rejudge_told e t) _

theorem purge_told (tr : Traffic) : Told tb ok tr (tr.purge tb p) :=
  Told.trans (tr' := { tr with pool := tr.pool.filter fun e => !e.isOf p }) (.of_eq rfl)
    (.foldl _ (fun _ _ => answer_told _ _ _ _ _) _)

theorem raiseMany_told {src : NoticeSource} {cls : NoticeClass} {k n : Nat} (hk : 0 < k) (hok : ok src cls n) (tr : Traffic) :
    Told tb ok tr (tr.raiseMany tb src cls k n) := CtlSteps.one (.raised _ _ _ _ _ hk (.inl hok))

theorem standingCheck_told (hok : ∀ f ∈ standingOrders v p tr, ok (.pass p) .forced f.2.code) :
    Told v.tables ok tr (tr.standingCheck v p) := by
  unfold Traffic.standingCheck
  split
  · simp only
    split
    · rename_i f r h
      have hmem := List.mem_of_getLast? h
      exact (Told.foldl _ (fun f t => originate_told t) tr).trans
        (raiseMany_told (List.length_pos_of_mem hmem) (hok _ hmem) _)
    · exact .refl'
  · exact .refl'

end told

end Sys2Proof.Machine

/-! Causes and what they bring: the entries to ALERT and TRIPPED (R151 to R155), line silence (R16), and the reports of the
notice slot and the relay of an applied report (R30, R106 to R108). -/

namespace Sys2Proof.Machine

/-! ### An applied report -/

section report

variable {s : State} {t : Telegram} {h : Hit} {c : Instr}

/-- R28: an applied report does what its role says, and is then relayed. -/
theorem exec_report (hc : arrival c = some (.field, t)) (hf : fate .field t s = .report h) :
    exec c s = .next ((reportEffect h.role h t s).relayApplied h t) := exec_of_fate hc hf

theorem report_configured (hf : fate .field t s = .report h) : (s.pass h.pass).mode ≠ .unconfigured := (fate_report hf).2.2.2

end report

/-- Settles O34, by the handling mode. -/
theorem appliedReportIsRelayed : Obligations.AppliedReportIsRelayed := by
  intro s h t
  refine ⟨fun hm => ?_, fun hm => ?_, fun hm => ?_⟩
  · unfold State.relayApplied
    rw [hm]
    rfl
  · unfold State.relayApplied
    rw [hm]
    rfl
  · refine ⟨withCheck { t with ann := BitVec.ofNat 8 (conditionCode (s.pass h.pass)) }, checkHolds_withCheck _, rfl, ?_⟩
    unfold State.relayApplied
    rw [hm]
    rfl

/-! ### The notice slot -/

section slot

variable {s : State} {h : Hit} {t : Telegram} {k : SlotKind} {n : SlotNotice}

theorem noticePostReport_ignored (hk : reportKind t = none) : noticePostReport h t s = s := by
  unfold noticePostReport
  rw [hk]

theorem noticePostReport_full (hk : reportKind t = some k) (hs : (s.pass h.pass).slot = some n) :
    noticePostReport h t s = s.raise (.pass h.pass) .slot (30 + k.code) := by
  unfold noticePostReport
  simp only [hk, hs]
  rfl

theorem noticePostReport_empty (hk : reportKind t = some k) (hs : (s.pass h.pass).slot = none) :
    noticePostReport h t s =
      ((s.setPass h.pass { s.pass h.pass with slot := some { kind := k, station := t.src, posted := s.time } }).raise
        (.pass h.pass) .slot (10 + k.code)).reportChange h.pass := by
  unfold noticePostReport
  simp only [hk, hs]
  rfl

theorem emptySlot_full {p : PassId} {event : Nat} (hs : (s.pass p).slot = some n) : s.emptySlot p event =
    ((s.setPass p { s.pass p with slot := none }).raise (.pass p) .slot (10 * event + n.kind.code)).reportChange p := by
  unfold State.emptySlot
  simp only [hs]
  rfl

theorem emptySlot_empty {p : PassId} {event : Nat} (hs : (s.pass p).slot = none) : s.emptySlot p event = s := by
  unfold State.emptySlot
  simp only [hs]

end slot

/-- Settles O33, slot by slot. -/
theorem noticeSlotReports : Obligations.NoticeSlotReports := by
  refine ⟨fun t => ⟨fun h => ?_, fun h => ?_, fun h => ?_, fun h1 h2 h3 => ?_, rfl⟩, ?_⟩
  · unfold reportKind
    rw [if_pos h]
  · unfold reportKind
    rw [h]
    rfl
  · unfold reportKind
    rw [h]
    rfl
  · unfold reportKind
    rw [if_neg h1, if_neg h2, if_neg h3]
  · intro t s h hf p x slotted
    refine ⟨fun hr => ?_, fun hr => ?_⟩
    · have hexec : exec (.noticePost t) s = .next ((noticePostReport h t s).relayApplied h t) := by
        rw [exec_report rfl hf, hr]
        rfl
      refine ⟨fun k hk => ⟨fun hs => ?_, fun n hs => ?_⟩, fun hk => ?_⟩
      · rw [hexec, noticePostReport_empty hk hs]
        rfl
      · rw [hexec, noticePostReport_full hk hs]
      · rw [hexec, noticePostReport_ignored hk]
    · have hexec : exec (.noticeTaken t) s = .next ((s.emptySlot h.pass 2).relayApplied h t) := by
        rw [exec_report rfl hf, hr]
        rfl
      refine ⟨fun n hs => ?_, fun hs => ?_⟩
      · rw [hexec, emptySlot_full hs]
        rfl
      · rw [hexec, emptySlot_empty hs]

/-! ### Causes (R151 to R155) -/

section causes

variable {s : State} {p : PassId} {c : Cause} {tel : Option Interrupted}

theorem alertCause_running (h : (s.pass p).mode = .running) : s.alertCause p c tel =
    ((s.setPass p { s.pass p with mode := .alert, alarm := raisedAlarm .alert c [] s.time (s.pass p).est tel }).raise
      (.pass p) .alert c.code).reportStandingChange p := by
  unfold State.alertCause
  simp only [h]

theorem alertCause_join (h : (s.pass p).mode = .alert ∨ (s.pass p).mode = .tripped) :
    s.alertCause p c tel = s.setPass p { s.pass p with alarm := (s.pass p).alarm.join c } := by
  unfold State.alertCause
  obtain h | h := h <;> simp only [h]

theorem alertCause_rest (h : (s.pass p).mode = .isolated ∨ (s.pass p).mode = .unconfigured) : s.alertCause p c tel = s := by
  unfold State.alertCause
  obtain h | h := h <;> simp only [h]

theorem tripCause_live (h : (s.pass p).mode = .running ∨ (s.pass p).mode = .alert) :
    s.tripCause p c tel = s.enterTripped p c tel := by
  unfold State.tripCause
  obtain h | h := h <;> simp only [h]

theorem tripCause_join (h : (s.pass p).mode = .tripped) :
    s.tripCause p c tel = s.setPass p { s.pass p with alarm := (s.pass p).alarm.join c } := by
  unfold State.tripCause
  simp only [h]

theorem tripCause_rest (h : (s.pass p).mode = .isolated ∨ (s.pass p).mode = .unconfigured) : s.tripCause p c tel = s := by
  unfold State.tripCause
  obtain h | h := h <;> simp only [h]

theorem Pass.withTrip_running {x : Pass} {now : Word} (h : x.mode = .running) : x.withTrip c now tel =
    { x with mode := .tripped, alarm := raisedAlarm .trip c [] now x.est tel } := by
  unfold Pass.withTrip
  simp only [h]
  rfl

theorem Pass.withTrip_alert {x : Pass} {now : Word} {old : Cause} (h : x.mode = .alert) (ho : x.alarm.primary = some old) :
    x.withTrip c now tel =
      { x with mode := .tripped, alarm := raisedAlarm .trip c (insertCause old x.alarm.secondary) now x.est tel } := by
  unfold Pass.withTrip
  simp only [h, ho]
  rfl

theorem AlarmRecord.join_eq {r : AlarmRecord} :
    r.join c = if r.primary = some c then r else { r with secondary := insertCause c r.secondary } := rfl

end causes

/-- Settles O37, state by state. -/
theorem causesMoveTheRecord : Obligations.CausesMoveTheRecord := by
  refine ⟨?_, fun c l => ⟨fun d => mem_insertCause, insertCause_sorted⟩, rfl⟩
  intro p c tel s x raised joined
  refine ⟨tripCause_live, fun h => ⟨?_, alertCause_running h, ?_⟩, fun h => ⟨alertCause_join (.inl h), fun old ho => ?_⟩,
    fun h => ⟨alertCause_join (.inr h), tripCause_join h⟩, fun h => ⟨alertCause_rest h, tripCause_rest h⟩,
    alertCause_record, tripCause_record, rfl⟩
  · rw [alertCause_running h]
    exact State.setPass_pass_self
  · rw [tripCause_record, Pass.withTrip_running h]
    rfl
  · rw [tripCause_record, Pass.withTrip_alert h ho]
    rfl

/-! ### The entry to TRIPPED (R155) -/

section tripping

variable {s : State} {p : PassId} {c : Cause} {tel : Option Interrupted} {v : View} {tr : Traffic} {a : Actuator}

/-- R155: for a pass in service the entry is what the manual lists, in its order. -/
theorem enterTripped_eq_afterTripping (h : (s.pass p).mode = .running ∨ (s.pass p).mode = .alert) :
    s.enterTripped p c tel = afterTripping p c tel s := by
  have hrecord : (s.pass p).withTrip c s.time tel =
      { s.pass p with
        mode := .tripped
        alarm := raisedAlarm .trip c (secondaryAtTrip (s.pass p)) s.time (s.pass p).est tel } := by
    rw [← tripCause_record, tripCause_live h, enterTripped_pass]
  unfold afterTripping
  rw [hrecord]
  rfl

/-- R129: without a held command of the pass a round takes nothing. -/
theorem round_of_none (h : ∀ e ∈ tr.pool, e.actuator.pass ≠ p) : tr.round v p = tr := by
  have hnil : tr.pool.filter (HeldEntry.isOf p) = [] := List.filter_eq_nil_iff.mpr fun e he => by simp [HeldEntry.isOf, h e he]
  unfold Traffic.round
  rw [hnil]
  rfl

theorem tripped_pool : ∀ e ∈ (s.tripped p c tel).traffic.pool, e.actuator.pass ≠ p := by
  intro e he
  rw [tripped_traffic, purge_pool] at he
  simpa [HeldEntry.isOf] using (List.mem_filter.mp he).2

/-- After the purge no command is held, so the report of the change finds nothing to judge. -/
theorem enterTripped_traffic : (s.enterTripped p c tel).traffic = (s.tripped p c tel).traffic.raise s.tables (.pass p) .trip c.code := by
  rw [enterTripped_eq]
  exact round_of_none (v := (s.tripped p c tel).view) tripped_pool

/-- What the safe commands of a trip read: the pass already TRIPPED. -/
def trippedView (s : State) (p : PassId) (c : Cause) (tel : Option Interrupted) : View :=
  (s.setPass p
    { s.pass p with
      mode := .tripped
      alarm := raisedAlarm .trip c (secondaryAtTrip (s.pass p)) s.time (s.pass p).est tel }).view

/-- The safe state of a pass: its actuators ordered safe. -/
def safed (s : State) (p : PassId) (c : Cause) (tel : Option Interrupted) : Traffic :=
  (safeStateOrder p).foldl (fun t a => t.originate (trippedView s p c tel) a) s.traffic

theorem tripped_eq_safed : (s.tripped p c tel).traffic = (safed s p c tel).purge s.tables p := rfl

theorem enterTripped_actions : (s.enterTripped p c tel).traffic.actions = (safed s p c tel).actions := by
  rw [enterTripped_traffic]
  exact purge_actions _ _ _

theorem lineOf_of_actions {tr' : Traffic} (h : tr'.actions = tr.actions) : lineOf tr' a = lineOf tr a := by
  unfold lineOf
  rw [h]

theorem orderedSafe_of_actions {tr' : Traffic} (h : tr'.actions = tr.actions) : orderedSafe tr' a ↔ orderedSafe tr a := by
  unfold orderedSafe
  rw [lineOf_of_actions h]

theorem enterTripped_orderedSafe (h : CommandsSound s) (ha : a.pass = p) (hcp : hasCommandPoint s.tables a = true) :
    orderedSafe (s.enterTripped p c tel).traffic a := by
  obtain ⟨-, hs⟩ := (commandsSound_iff s).mp h
  rw [orderedSafe_of_actions enterTripped_actions]
  exact foldl_originate_orderedSafe (v := trippedView s p c tel) hcp _ _ hs.ordered (.inl (mem_safeStateOrder_iff.mpr ha))

/-- R136: an actuator without a command point has no entry. -/
theorem no_line_of_no_point {live : PassId → Bool} (h : TrafficSound s.tables live tr) (hcp : hasCommandPoint s.tables a = false) :
    lineOf tr a = [] := by
  by_contra hne
  rw [lineOf_eq_nil_iff] at hne
  rw [(h.1 a).2.2.1 hne] at hcp
  cases hcp

theorem safed_sound (h : CommandsSound s) :
    TrafficSound s.tables (fun q => (s.pass q).mode.isLive) (safed s p c tel) :=
  foldl_originate_sound (v := trippedView s p c tel) rfl _ _ ((commandsSound_iff s).mp h).2

theorem enterTripped_idle (h : CommandsSound s) (hcp : hasCommandPoint s.tables a = false) :
    lineOf (s.enterTripped p c tel).traffic a = [] := by
  rw [lineOf_of_actions enterTripped_actions]
  exact no_line_of_no_point (safed_sound h) hcp

theorem safed_told : Told s.tables (fun _ _ _ => False) s.traffic (safed s p c tel) :=
  Told.foldl (tb := s.tables) _ (fun _ t => originate_told (v := trippedView s p c tel) t) _

/-- R155, R165: the TRIP notice is raised after all that the entry brings. -/
theorem enterTripped_announced : announced s.tables (.pass p) .trip c.code s.traffic.ctl (s.enterTripped p c tel).traffic.ctl := by
  refine Heard.announced fun hen => ?_
  have hpurged : Told s.tables (fun _ _ _ => False) s.traffic (s.tripped p c tel).traffic :=
    safed_told.trans (purge_told _)
  rw [enterTripped_traffic]
  exact (CtlSteps.onward hpurged).heard hen Nat.one_pos rfl

theorem enterTripped_matched (h : CommandsSound s) (hm : ActionTelegramsMatched s.traffic) :
    ActionTelegramsMatched (s.enterTripped p c tel).traffic := by
  have hissued : IssuedOnce s.traffic := ((commandsSound_iff s).mp h).2.ordered.issuedOnce
  have hsafed : Prims (trippedView s p c tel) True s.traffic (safed s p c tel) :=
    Prims.foldl_once (f := fun t a => t.originate (trippedView s p c tel) a) (fun _ t ht => originate_prims t ht) _ _ hissued
  have hraised : Prims (trippedView s p c tel) True s.traffic (s.enterTripped p c tel).traffic := by
    rw [enterTripped_traffic]
    exact (hsafed.trans (purge_prims p _)).trans (Prims.one (.raise _ _ _ 1 _ (sourceFits_pass rfl) Nat.one_pos))
  exact hraised.matched hissued hm

/-- R10, R155: an action telegram still queued for the pass is that of a safe entry. -/
theorem enterTripped_telegrams (h : CommandsSound s) (hm : ActionTelegramsMatched s.traffic) {q : Queued}
    (hq : q ∈ (s.enterTripped p c tel).traffic.field.queue) (hc : q.cls = .action a .nonSafe) : a.pass ≠ p := by
  intro ha
  obtain ⟨e, he, hea, hed, -⟩ := (enterTripped_matched h hm).2 q hq a .nonSafe hc
  have hline : e ∈ lineOf (s.enterTripped p c tel).traffic a := mem_lineOf.mpr ⟨he, hea⟩
  by_cases hcp : hasCommandPoint s.tables a = true
  · obtain ⟨x, hx, -, hxd⟩ := enterTripped_orderedSafe (c := c) (tel := tel) h ha hcp
    rw [hx] at hline
    rw [List.mem_singleton.mp hline, hxd] at hed
    cases hed
  · rw [enterTripped_idle h (by simpa using hcp)] at hline
    cases hline

end tripping

/-- Settles O27, from the safe commands that the purge and the notice leave as they are. -/
theorem tripLeavesSafeCommands : Obligations.TripLeavesSafeCommands := by
  refine ⟨fun p c tel s => enterTripped_eq_afterTripping, fun p c tel s hs hm => ?_⟩
  refine ⟨congrArg Pass.mode enterTripped_pass, fun a ha => ⟨enterTripped_orderedSafe hs ha, enterTripped_idle hs⟩,
    fun e he => ?_, enterTripped_announced, fun q hq a hc => enterTripped_telegrams hs hm hq hc⟩
  rw [enterTripped_traffic] at he
  exact tripped_pool e he

/-! ### Line silence (R16) -/

section silence

variable {s : State} {p : PassId} {c : Cause} {tel : Option Interrupted}

theorem tripCause_time : (s.tripCause p c tel).time = s.time := (tripCause_within c tel).time_eq

/-- R149: passes that take a cause one after another each take it as they stood. -/
theorem foldl_tripCause_pass (l : List PassId) : ∀ s : State, l.Nodup →
    ((l.foldl (fun v q => v.tripCause q c tel) s).pass p) = if p ∈ l then (s.pass p).withTrip c s.time tel else s.pass p := by
  induction l with
  | nil => exact fun s _ => rfl
  | cons q qs ih =>
    intro s hnd
    obtain ⟨hq, hqs⟩ := List.nodup_cons.mp hnd
    rw [List.foldl_cons, ih _ hqs, tripCause_time]
    by_cases hp : p = q
    · rw [hp, if_neg hq, if_pos List.mem_cons_self, tripCause_record]
    · rw [((tripCause_within (p := q) c tel).2 p hp).1]
      simp [hp]

theorem mem_passOrder (order : List PassId) : p ∈ passOrder order := by
  have hall : p ∈ allPasses := by fin_cases p <;> simp [allPasses]
  unfold passOrder
  by_cases hp : p ∈ order
  · exact List.mem_append_left _ (List.mem_eraseDups.mpr hp)
  · exact List.mem_append_right _ (List.mem_filter.mpr ⟨hall, by simpa using hp⟩)

theorem eraseDups_nodup : ∀ l : List PassId, l.eraseDups.Nodup
  | [] => List.nodup_nil
  | q :: qs => by
    rw [List.eraseDups_cons]
    refine List.nodup_cons.mpr ⟨fun hq => ?_, eraseDups_nodup _⟩
    simpa using (List.mem_filter.mp (List.mem_eraseDups.mp hq)).2
termination_by l => l.length
decreasing_by exact Nat.lt_succ_of_le (List.length_filter_le _ _)

theorem passOrder_nodup (order : List PassId) : (passOrder order).Nodup := by
  have hall : allPasses.Nodup := by decide
  refine List.nodup_append.mpr ⟨eraseDups_nodup order, hall.filter _, fun p hp q hq => ?_⟩
  rintro rfl
  exact absurd (List.mem_eraseDups.mp hp) (by simpa using (List.mem_filter.mp hq).2)

theorem foldl_tripCause_frame (l : List PassId) : ∀ s : State,
    l.foldl (fun v q => v.tripCause q c tel) s =
      { s with
        passes := (l.foldl (fun v q => v.tripCause q c tel) s).passes
        traffic := (l.foldl (fun v q => v.tripCause q c tel) s).traffic } := by
  induction l with
  | nil => exact fun _ => rfl
  | cons q qs ih =>
    intro s
    rw [List.foldl_cons, ih, (tripCause_within (s := s) (p := q) c tel).1]

/-- With no DEVICE-RESET pending a timer's expiry does what it does, and nothing else. -/
theorem Expires.exec_idle {i : Instr} {f : State → State} (hf : Expires i f) (hr : s.resetPending = false) :
    exec i s = .next (f s) := by
  obtain ⟨hexec, hcommute, -⟩ := hf
  have hs : s.withReset false = s := by
    unfold State.withReset
    rw [← hr]
  have hfs := hcommute s false
  rw [hs] at hfs
  rw [hexec, settleReset_of_none]
  rw [hfs]
  rfl

theorem silenceRunsOut_none (order : List PassId) (h : s.silence = none) : s.silenceRunsOut order = s := by
  unfold State.silenceRunsOut
  rw [h]

theorem silenceRunsOut_some (order : List PassId) {n : Nat} (h : s.silence = some n) : s.silenceRunsOut order =
    (passOrder order).foldl (fun v p => v.tripCause p .lineSilence none) { s with silence := none } := by
  unfold State.silenceRunsOut
  rw [h]

/-- R152, R154: what a trip cause does to the state and the record of a pass. -/
theorem Pass.withTrip_shape (c : Cause) (now : Word) (tel : Option Interrupted) (x : Pass) :
    x.withTrip c now tel = { x with mode := x.mode.afterTrip True, alarm := (x.withTrip c now tel).alarm }
      ∧ (x.mode.isLive = true → (x.withTrip c now tel).alarm.level = .trip ∧ (x.withTrip c now tel).alarm.primary = some c
          ∧ (x.withTrip c now tel).alarm.raisedAt = now ∧ (x.withTrip c now tel).alarm.telegram = tel)
      ∧ (x.mode = .tripped → (x.withTrip c now tel).alarm = x.alarm.join c)
      ∧ (x.mode.isLive = false → x.mode ≠ .tripped → (x.withTrip c now tel).alarm = x.alarm) := by
  unfold Pass.withTrip PassState.afterTrip
  cases hm : x.mode <;> simp [PassState.isLive] <;> rw [← hm]

end silence

/-- Settles O35: the passes take the cause one after another, each as it stood. -/
theorem lineSilenceTripsEveryLivePass : Obligations.LineSilenceTripsEveryLivePass := by
  refine ⟨fun order s n hn hr => ?_, fun order s hn hr => ?_⟩
  · refine ⟨s.silenceRunsOut order, (lineSilence_expires order).exec_idle hr, silenceRunsOut_some order hn, ?_, fun p => ?_⟩
    · rw [silenceRunsOut_some order hn, foldl_tripCause_frame]
    · have hpass : (s.silenceRunsOut order).pass p = (s.pass p).withTrip .lineSilence s.time none := by
        rw [silenceRunsOut_some order hn, foldl_tripCause_pass _ _ (passOrder_nodup order), if_pos (mem_passOrder order)]
        rfl
      rw [hpass]
      exact Pass.withTrip_shape _ _ _ _
  · rw [(lineSilence_expires order).exec_idle hr, silenceRunsOut_none order hn]

end Sys2Proof.Machine

/-! One evaluation and what it hands on (R62 to R76): the LEVEL report and the timers of samples and held commands. -/

namespace Sys2Proof.Machine

section evaluation

variable {s : State} {p : PassId} {x : Pass} {o u : Bool} {tel : Option Interrupted}

theorem handBand_eq {before : Band} : s.handBand p before =
    if (s.pass p).est.band = before then s
    else (s.raise (.pass p) .band (s.pass p).est.band.code).reportStandingChange p := rfl

theorem Pass.evaluated_quiet {pr : PassParams} (h : enabledCauses pr (findings pr x o u).causes = []) :
    x.evaluated pr o u = (x.est.record (findings pr x o u).causes).store pr (findings pr x o u) := if_pos h

theorem Pass.evaluated_alarmed {pr : PassParams} (h : enabledCauses pr (findings pr x o u).causes ≠ []) :
    x.evaluated pr o u = x.est.record (findings pr x o u).causes := if_neg h

/-- R72, R73, R76: an evaluation of a record is what the manual lists. -/
theorem evaluate_eq_afterEvaluating (h : x.mode ≠ .unconfigured) :
    (s.setPass p x).evaluate p o u tel = afterEvaluating p x o u tel s := by
  have hset : ∀ y : Pass, (s.setPass p x).setPass p y = s.setPass p y := fun y => State.setPass_setPass
  unfold State.evaluate afterEvaluating
  simp only [State.setPass_pass_self, State.setPass_params, if_neg h, hset]
  split
  · rename_i he
    rw [he, Pass.evaluated_quiet he, if_neg (by simp), handBand_eq, State.setPass_pass_self]
    rfl
  · rename_i c cs he
    rw [he, if_pos (List.cons_ne_nil c cs), Pass.evaluated_alarmed (by rw [he]; exact List.cons_ne_nil c cs)]
    rfl

theorem evaluate_self_eq (h : (s.pass p).mode ≠ .unconfigured) :
    s.evaluate p o u tel = afterEvaluating p (s.pass p) o u tel s := by
  have h' := evaluate_eq_afterEvaluating (s := s) (p := p) (o := o) (u := u) (tel := tel) h
  rwa [State.setPass_pass_same] at h'

/-- R62 to R73: the record after one evaluation, with its alarm record. -/
theorem evaluate_whole (h : (s.pass p).mode ≠ .unconfigured) : (s.evaluate p o u tel).pass p =
    { s.pass p with
      est := (s.pass p).evaluated (s.params p) o u
      mode := (s.pass p).stateEvaluated (s.params p) o u
      alarm := ((s.pass p).afterEvaluation (s.params p) o u s.time tel).alarm } := by
  have halarm := congrArg Pass.alarm (evaluate_record (s := s) (p := p) (tel := tel) o u h)
  rw [← halarm]
  exact evaluate_pass o u h

end evaluation

/-! ### Samples -/

section samples

variable {pr : PassParams} {e : PointEntry} {t : Telegram} {m : Rounding} {a b : Nat}

/-- R60: a raw count out of range or a quality code above 1 is Bad. -/
theorem reportQuality_eq : reportQuality t =
    if t.value.toInt < 0 ∨ 65535 < t.value.toInt ∨ 1 < t.qual.toNat then .bad
    else if t.qual = 0 then .good else .uncertain := by
  unfold reportQuality
  by_cases hv : t.value.toInt < 0 ∨ 65535 < t.value.toInt
  · rw [if_pos hv, if_pos (hv.imp_right .inl)]
  · rw [if_neg hv]
    have hrange : ¬1 < t.qual.toNat → ¬(t.value.toInt < 0 ∨ 65535 < t.value.toInt ∨ 1 < t.qual.toNat) := by tauto
    split
    · rename_i hq
      have hzero : t.qual = 0 := BitVec.eq_of_toNat_eq hq
      rw [if_neg (hrange (by omega)), if_pos hzero]
    · rename_i hq
      have hne : t.qual ≠ 0 := fun h => by
        rw [h] at hq
        exact absurd hq (by decide)
      rw [if_neg (hrange (by omega)), if_neg hne]
    · rename_i h0 h1
      have hbig : 1 < t.qual.toNat := by
        have h0' : t.qual.toNat ≠ 0 := h0
        have h1' : t.qual.toNat ≠ 1 := h1
        omega
      rw [if_pos (.inr (.inr hbig))]

theorem sampleOf_bad (h : reportQuality t = .bad) :
    sampleOf pr e t = { distance := 0, quality := .bad, inexact := false, fresh := true } := by
  unfold sampleOf
  rw [h]

theorem sampleOf_usable {q : Quality} {num den : Nat} (h : reportQuality t = q) (hq : q ≠ .bad) (hn : e.scaleNum = some num)
    (hd : e.scaleDen = some den) : sampleOf pr e t =
      { distance := (roundDiv pr.rounding (t.value.toInt.toNat * num) den).1
        quality := q
        inexact := decide (t.value.toInt.toNat * num % den ≠ 0)
        fresh := true } := by
  unfold sampleOf
  rw [h, hn, hd]
  cases q with
  | bad => exact absurd rfl hq
  | good => rfl
  | uncertain => rfl

/-- R58: the quotient rounded up. -/
theorem roundDiv_up : (roundDiv .up a b).1 = if a % b = 0 then a / b else a / b + 1 := rfl

/-- R58: the quotient rounded to the nearest, a half to the even one. -/
theorem roundDiv_nearest : (roundDiv .nearest a b).1 =
    if 2 * (a % b) < b then a / b
    else if b < 2 * (a % b) then a / b + 1
    else if a / b % 2 = 0 then a / b else a / b + 1 := rfl

theorem roundDiv_bounds (hb : 0 < b) (q : Nat) (hq : q = (roundDiv m a b).1) :
    (m = .down → q * b ≤ a ∧ a < (q + 1) * b)
      ∧ (m = .up → a ≤ q * b ∧ q * b < a + b)
      ∧ (m = .nearest → 2 * (q * b) ≤ 2 * a + b ∧ 2 * a ≤ 2 * (q * b) + b
          ∧ (2 * (q * b) = 2 * a + b ∨ 2 * a = 2 * (q * b) + b → q % 2 = 0)) := by
  have hdiv : a / b * b + a % b = a := Nat.div_add_mod' a b
  have hmod : a % b < b := Nat.mod_lt a hb
  have hsucc : (a / b + 1) * b = a / b * b + b := Nat.succ_mul _ _
  refine ⟨?_, ?_, ?_⟩ <;> rintro rfl
  · have hq' : q = a / b := hq
    rw [hq', hsucc]
    omega
  · rw [roundDiv_up] at hq
    split at hq
    · rw [hq]
      omega
    · rw [hq, hsucc]
      omega
  · rw [roundDiv_nearest] at hq
    split at hq
    · rw [hq]
      omega
    · split at hq
      · rw [hq, hsucc]
        omega
      · split at hq
        · rw [hq]
          omega
        · rw [hq, hsucc]
          omega

end samples

section levels

variable {s : State} {t : Telegram} {h : Hit} {p : PassId}

/-- R60: the record of a pass whose LEVEL report has been taken. -/
def State.sampled (s : State) (p : PassId) (sm : Sample) : Pass :=
  { s.pass p with est := { (s.pass p).est with sample := some sm, life := some (s.params p).staleTime } }

theorem levelReport_eq (hm : (s.pass h.pass).mode ≠ .unconfigured) : levelReport h t s =
    afterEvaluating h.pass (s.sampled h.pass (sampleOf (s.params h.pass) h.entry t)) false false (carriedReport t) s :=
  evaluate_eq_afterEvaluating (x := s.sampled h.pass (sampleOf (s.params h.pass) h.entry t)) hm

/-- The record after an evaluation of a record set before it. -/
theorem evaluate_setPass_whole {x : Pass} {o u : Bool} {tel : Option Interrupted} (hm : x.mode ≠ .unconfigured) :
    ((s.setPass p x).evaluate p o u tel).pass p = { x with
      est := x.evaluated (s.params p) o u
      mode := x.stateEvaluated (s.params p) o u
      alarm := (x.afterEvaluation (s.params p) o u s.time tel).alarm } := by
  have hself : (s.setPass p x).pass p = x := State.setPass_pass_self
  have h := evaluate_whole (s := s.setPass p x) (p := p) (o := o) (u := u) (tel := tel) (by rwa [hself])
  rwa [hself] at h

end levels

/-- Settles O28: the sample, one evaluation of the record that holds it, and the relay. -/
theorem levelReport_holds : Obligations.LevelReport := by
  refine ⟨fun t s h hf hr => ?_, fun pr e t => ?_, fun m a b hb => ?_⟩
  · have hm := report_configured hf
    have hexec : exec (.level t) s = .next ((levelReport h t s).relayApplied h t) := by
      rw [exec_report rfl hf, hr]
      rfl
    refine ⟨⟨_, hexec, ((levelReport_within h t).append (relayApplied_within h t)).reportFrame, ?_⟩, ?_⟩
    · rw [State.relayApplied_pass]
      exact evaluate_setPass_whole (x := s.sampled h.pass (sampleOf (s.params h.pass) h.entry t)) hm
    · intro p pr before x causes est noted
      rw [hexec, levelReport_eq hm]
      have hband : (s.sampled h.pass (sampleOf (s.params h.pass) h.entry t)).est.band = before.band := rfl
      unfold afterEvaluating
      rw [hband]
      refine ⟨fun hc hb => ?_, fun hc hb => ?_, fun hc => ?_⟩
      · exact congrArg (fun w => Host.Outcome.next (State.relayApplied h t w)) ((if_neg (not_not.mpr hc)).trans (if_pos hb))
      · exact congrArg (fun w => Host.Outcome.next (State.relayApplied h t w)) ((if_neg (not_not.mpr hc)).trans (if_neg hb))
      · exact congrArg (fun w => Host.Outcome.next (State.relayApplied h t w)) (if_pos hc)
  · intro raw bad
    refine ⟨fun hbad => sampleOf_bad (reportQuality_eq.trans (if_pos hbad)), fun hbad num den hn hd => ?_⟩
    have hq : reportQuality t = if t.qual = 0 then .good else .uncertain := reportQuality_eq.trans (if_neg hbad)
    exact sampleOf_usable hq (by split <;> decide) hn hd
  · obtain ⟨hdown, hup, hnearest⟩ := roundDiv_bounds (m := m) (a := a) hb _ rfl
    exact ⟨hdown, hup, hnearest, decide_eq_true_iff⟩

/-! ### Timers of samples and held commands -/

section timers

variable {s : State} {p : PassId} {a : Actuator} {e : HeldEntry} {tr : Traffic} {tb : Tables}

/-- R61: the record of a pass whose sample has gone stale. -/
def State.staled (s : State) (p : PassId) : Pass :=
  { s.pass p with
    est := { (s.pass p).est with
      sample := (s.pass p).est.sample.map (fun sm => { sm with fresh := false })
      life := none } }

theorem staleSample_none (h : (s.pass p).est.life = none) : s.staleSample p = s := by
  unfold State.staleSample
  simp only [h]

theorem staleSample_some {n : Nat} (h : (s.pass p).est.life = some n) :
    s.staleSample p = (s.setPass p (s.staled p)).evaluate p false false none := by
  unfold State.staleSample
  simp only [h]
  rfl

theorem expireHeld_of_held (h : tr.pool.find? (HeldEntry.isFor a) = some e) :
    tr.expireHeld tb a = (tr.unpark a).answer tb e.requester .expired e.reason 0 := by
  unfold Traffic.expireHeld
  rw [h]

theorem expireHeld_of_none (h : ∀ e ∈ tr.pool, e.actuator ≠ a) : tr.expireHeld tb a = tr := by
  have hnone : tr.pool.find? (HeldEntry.isFor a) = none := List.find?_eq_none.mpr fun e he => by simp [HeldEntry.isFor, h e he]
  unfold Traffic.expireHeld
  rw [hnone]

end timers

/-- Settles O36, timer by timer. -/
theorem sampleAndHoldTimersRunOut : Obligations.SampleAndHoldTimersRunOut := by
  refine ⟨fun p s n hn hm hr => ?_, fun p s hn hr => ?_, fun a s e hp he ha hr => ?_, fun a s hnone hr => ?_⟩
  · have hstale : s.staleSample p = _ := staleSample_some hn
    refine ⟨s.staleSample p, (sampleStale_expires p).exec_idle hr, staleSample_within.reportFrame, ?_, ?_⟩
    · rw [hstale]
      exact evaluate_setPass_whole (x := s.staled p) hm
    · rw [hstale]
      exact evaluate_eq_afterEvaluating (x := s.staled p) hm
  · rw [(sampleStale_expires p).exec_idle hr, staleSample_none hn]
  · rw [(holdExpiry_expires a).exec_idle hr]
    have hexpire := expireHeld_of_held (tb := s.tables) (find?_held hp.2 he ha)
    exact congrArg (fun tr => Host.Outcome.next { s with traffic := tr }) hexpire
  · rw [(holdExpiry_expires a).exec_idle hr]
    have hexpire := expireHeld_of_none (tb := s.tables) hnone
    exact congrArg (fun tr => Host.Outcome.next { s with traffic := tr }) hexpire

end Sys2Proof.Machine

/-! Interlock-relevant changes (R121 to R124, R129 to R131): the standing check and the round of re-judgement. -/

namespace Sys2Proof.Machine

/-! ### Re-judgement (R129 to R131) -/

section rejudge

variable {v : View} {p : PassId} {tr : Traffic} {e : HeldEntry} {a b : Actuator} {vd : Verdict}

theorem rejudge_refused (hvd : judge v tr e.actuator (requestedValue e.value) = vd) (h : vd.severity = .refuse) :
    tr.rejudge v e = (tr.unpark e.actuator).answer v.tables e.requester .refused vd.reason 0 := by
  unfold Traffic.rejudge
  simp only [hvd, h]

theorem rejudge_held (hvd : judge v tr e.actuator (requestedValue e.value) = vd) (h : vd.severity = .hold) :
    tr.rejudge v e =
      { tr with pool := tr.pool.map fun x => if x.isFor e.actuator then { x with reason := vd.reason } else x } := by
  unfold Traffic.rejudge
  simp only [hvd, h]

theorem rejudge_allowed (hvd : judge v tr e.actuator (requestedValue e.value) = vd)
    (h : vd.severity = .pass ∨ vd.severity = .clamp) : tr.rejudge v e = tr.release v e vd := by
  unfold Traffic.rejudge
  obtain h | h := h <;> simp only [hvd, h]

theorem release_turned {reason : Reason}
    (h : (tr.unpark e.actuator).enlist v e.actuator vd.value e.requester e.carried = (tr.unpark e.actuator, some reason)) :
    tr.release v e vd = (tr.unpark e.actuator).answer v.tables e.requester .refused reason 0 := by
  unfold Traffic.release
  rw [h]

theorem release_taken {taken : Traffic}
    (h : (tr.unpark e.actuator).enlist v e.actuator vd.value e.requester e.carried = (taken, none)) :
    tr.release v e vd = taken.answer v.tables e.requester .released vd.reason vd.value := by
  unfold Traffic.release
  rw [h]

/-- What a re-judgement does, by its verdict. -/
theorem rejudge_cases (v : View) (tr : Traffic) (e : HeldEntry) :
    (∃ u reason ans n, tr.rejudge v e = u.answer v.tables e.requester ans reason n
        ∧ (u = tr.unpark e.actuator ∨ u = ((tr.unpark e.actuator).enlist v e.actuator
            (judge v tr e.actuator (requestedValue e.value)).value e.requester e.carried).1
            ∧ Allowed (judge v tr e.actuator (requestedValue e.value))))
      ∨ ∃ reason, tr.rejudge v e =
          { tr with pool := tr.pool.map fun x => if x.isFor e.actuator then { x with reason := reason } else x } := by
  cases hs : (judge v tr e.actuator (requestedValue e.value)).severity with
  | refuse => exact .inl ⟨_, _, _, _, rejudge_refused rfl hs, .inl rfl⟩
  | hold => exact .inr ⟨_, rejudge_held rfl hs⟩
  | pass | clamp =>
    have hallowed : Allowed (judge v tr e.actuator (requestedValue e.value)) := by
      unfold Allowed
      rw [hs]
      decide
    rw [rejudge_allowed rfl (by rw [hs]; decide)]
    unfold Traffic.release
    split
    · rename_i tr' reason he
      exact .inl ⟨tr', _, _, _, rfl, .inr ⟨by rw [he], hallowed⟩⟩
    · rename_i tr' he
      exact .inl ⟨tr', _, _, _, rfl, .inr ⟨by rw [he], hallowed⟩⟩

/-- What a held command keeps while it is held. -/
def HeldEntry.stays (e : HeldEntry) : Actuator × Requester × Word × Carried × Nat :=
  (e.actuator, e.requester, e.value, e.carried, e.timer)

theorem rejudge_stays : ((tr.rejudge v e).pool.map HeldEntry.stays).Sublist (tr.pool.map HeldEntry.stays) := by
  obtain ⟨u, reason, ans, n, h, hu | ⟨hu, -⟩⟩ | ⟨reason, h⟩ := rejudge_cases v tr e <;> rw [h]
  · rw [Traffic.answer_pool, hu]
    exact List.filter_sublist.map _
  · rw [Traffic.answer_pool, hu, enlist_pool]
    exact List.filter_sublist.map _
  · have hmap : (tr.pool.map fun x => if x.isFor e.actuator then { x with reason := reason } else x).map HeldEntry.stays
        = tr.pool.map HeldEntry.stays := by
      rw [List.map_map]
      refine List.map_congr_left fun x _ => ?_
      simp only [Function.comp]
      split <;> rfl
    rw [hmap]

theorem round_stays : ((tr.round v p).pool.map HeldEntry.stays).Sublist (tr.pool.map HeldEntry.stays) := by
  unfold Traffic.round
  generalize tr.pool.filter (HeldEntry.isOf p) = l
  induction l generalizing tr with
  | nil => exact .refl _
  | cons e es ih => exact ih.trans rejudge_stays

/-- A line whose actuator no command is allowed for stays as it is through a re-judgement. -/
theorem rejudge_line (h : ∀ tr n, ¬Allowed (judge v tr b n)) : restLine (tr.rejudge v e) b = restLine tr b := by
  obtain ⟨u, reason, ans, n, he, hu | ⟨hu, hallowed⟩⟩ | ⟨reason, he⟩ := rejudge_cases v tr e <;> rw [he]
  · rw [hu]
    rfl
  · have hb : b ≠ e.actuator := fun hb => h tr _ (hb ▸ hallowed)
    rw [hu]
    exact enlist_line_of_ne _ _ _ hb
  · rfl

theorem round_line (h : ∀ tr n, ¬Allowed (judge v tr b n)) : restLine (tr.round v p) b = restLine tr b := by
  unfold Traffic.round
  generalize tr.pool.filter (HeldEntry.isOf p) = l
  induction l generalizing tr with
  | nil => rfl
  | cons e es ih => exact ih.trans (rejudge_line h)

theorem orderedSafe_of_restLine {tr' : Traffic} (h : restLine tr' b = restLine tr b) : orderedSafe tr' b ↔ orderedSafe tr b := by
  rw [orderedSafe_iff, orderedSafe_iff, h]

end rejudge

/-! ### The standing check (R124) -/

section standing

variable {v : View} {p : PassId} {tr : Traffic} {a : Actuator} {f last : Actuator × Reason}

/-- The traffic in which the standing check has ordered its actuators safe. -/
def ordered (v : View) (p : PassId) (tr : Traffic) : Traffic := (standingOrders v p tr).foldl (fun t f => t.originate v f.1) tr

theorem standingOrders_eq : standingOrders v p tr = forcedBy v tr p := by
  have happend : standingOrder p = ([0, 1] : List ChuteId).map (Actuator.gate p)
      ++ ([0, 1, 2] : List TipId).map (Actuator.signal p) ++ ([0, 1, 2] : List TipId).map (Actuator.breaker p) := rfl
  unfold standingOrders forcedBy
  rw [happend, List.filterMap_append, List.filterMap_append, List.filterMap_map, List.filterMap_map, List.filterMap_map]
  congr 1
  · congr 1
    · refine List.filterMap_congr fun c _ => ?_
      simp only [Function.comp, isEngaged, confirmedNonSafe, standingReason]
      split
      · simp only [decide_eq_true_eq]
        split
        · rfl
        · split <;> rfl
      · rfl
    · refine List.filterMap_congr fun n _ => ?_
      simp only [Function.comp, isEngaged, confirmedNonSafe, standingReason, Bool.and_eq_true, decide_eq_true_eq]
      split
      · split
        · simp_all
        · simp_all
      · simp_all
  · refine List.filterMap_congr fun n _ => ?_
    simp only [Function.comp, isEngaged, confirmedNonSafe, standingReason, Bool.and_eq_true, decide_eq_true_eq]
    split
    · split
      · simp_all
      · simp_all
    · simp_all

theorem hasCommandPoint_of_forced (h : f ∈ standingOrders v p tr) : hasCommandPoint v.tables f.1 = true := by
  obtain ⟨a, ha, hf⟩ := List.mem_filterMap.mp h
  split at hf
  · rename_i hb
    obtain ⟨r, -, rfl⟩ := Option.map_eq_some_iff.mp hf
    exact (Bool.and_eq_true _ _ ▸ hb).1
  · cases hf

theorem standingCheck_of_rest (h : (v.passes.get p).mode.isLive = false) : tr.standingCheck v p = tr := by
  unfold Traffic.standingCheck
  rw [h]
  rfl

theorem standingCheck_of_none (h : standingOrders v p tr = []) : tr.standingCheck v p = tr := by
  unfold Traffic.standingCheck
  rw [h]
  split <;> rfl

theorem standingCheck_of_some (hl : (v.passes.get p).mode.isLive = true) (h : (standingOrders v p tr).getLast? = some last) :
    tr.standingCheck v p =
      (ordered v p tr).raiseMany v.tables (.pass p) .forced (standingOrders v p tr).length last.2.code := by
  unfold Traffic.standingCheck
  simp only [hl, h, if_true]
  rfl

theorem standingCheck_actions : (tr.standingCheck v p).actions = tr.actions
    ∨ (v.passes.get p).mode.isLive = true ∧ (tr.standingCheck v p).actions = (ordered v p tr).actions := by
  by_cases hl : (v.passes.get p).mode.isLive = true
  · cases h : (standingOrders v p tr).getLast? with
    | some last =>
      rw [standingCheck_of_some hl h]
      exact .inr ⟨hl, rfl⟩
    | none =>
      rw [standingCheck_of_none (List.getLast?_eq_none_iff.mp h)]
      exact .inl rfl
  · rw [standingCheck_of_rest (by simpa using hl)]
    exact .inl rfl

theorem ordered_eq : ordered v p tr = ((standingOrders v p tr).map Prod.fst).foldl (fun t a => t.originate v a) tr := by
  rw [ordered, List.foldl_map]

theorem ordered_takeSafe : ordered v p tr = (standingOrders v p tr).foldl (fun x f => x.takeSafe v f.1 none noCarried) tr := by
  unfold ordered
  refine List.foldl_ext _ _ _ fun t f hf => ?_
  exact if_pos (hasCommandPoint_of_forced hf)

/-- R124: the actuators forced are ordered safe. -/
theorem standingCheck_orderedSafe (hl : (v.passes.get p).mode.isLive = true) (hord : LinesOrdered tr)
    (h : f ∈ standingOrders v p tr) : orderedSafe (tr.standingCheck v p) f.1 := by
  cases hlast : (standingOrders v p tr).getLast? with
  | none =>
    rw [List.getLast?_eq_none_iff.mp hlast] at h
    cases h
  | some last =>
    rw [standingCheck_of_some hl hlast]
    refine (orderedSafe_of_actions (tr := ordered v p tr) rfl).mpr ?_
    rw [ordered_eq]
    exact foldl_originate_orderedSafe (hasCommandPoint_of_forced h) _ _ hord (.inl (List.mem_map_of_mem h))

/-- R124: the lines of the others lose at most what makes room. -/
theorem standingCheck_trims (h : ∀ f ∈ standingOrders v p tr, f.1 ≠ a) : LineTrimmed a tr (tr.standingCheck v p) := by
  obtain hact | ⟨-, hact⟩ := standingCheck_actions (v := v) (p := p) (tr := tr)
  · exact .of_actions hact
  · refine LineTrimmed.trans ?_ (.of_actions hact)
    rw [ordered_eq]
    refine foldl_originate_trims _ (fun b hb => ?_) _
    obtain ⟨f, hf, rfl⟩ := List.mem_map.mp hb
    exact (h f hf).symm

theorem ordered_told {ok : NoticeSource → NoticeClass → Nat → Prop} : Told v.tables ok tr (ordered v p tr) :=
  .foldl _ (fun _ t => originate_told t) _

/-- R124: a check that forces an actuator raises FORCED with the reason of the last. -/
theorem standingCheck_heard {c : ControlSide} {D : Nat → Prop} (hl : (v.passes.get p).mode.isLive = true)
    (hlast : (standingOrders v p tr).getLast? = some last) (hD : D last.2.code)
    (hen : (v.tables.notices.get .forced).enabled = true) (hon : Onward p .forced c tr.ctl) :
    Heard v.tables p .forced D c (tr.standingCheck v p).ctl := by
  have htold : Told v.tables (fun _ _ _ => False) tr (ordered v p tr) := ordered_told
  have hon' : Onward p .forced c (ordered v p tr).ctl :=
    Relation.ReflTransGen.head_induction_on (motive := fun d _ => Onward p .forced c d → Onward p .forced c (ordered v p tr).ctl)
      htold id (fun hs _ ih hd => ih (hd.step hs)) hon
  rw [standingCheck_of_some hl hlast]
  exact hon'.heard hen (List.length_pos_of_mem (List.mem_of_getLast? hlast)) hD

theorem standingOrders_length : (standingOrders v p tr).length ≤ 8 := List.length_filterMap_le _ _

/-- R165: the FORCED raises of a check coalesce. -/
theorem standingCheck_disabled (hl : (v.passes.get p).mode.isLive = true) (hlast : (standingOrders v p tr).getLast? = some last)
    (hen : (v.tables.notices.get .forced).enabled = false) : tr.standingCheck v p = ordered v p tr := by
  have hctl := ControlSide.raiseMany_disabled (c := (ordered v p tr).ctl) (src := .pass p)
    (k := (standingOrders v p tr).length) (n := last.2.code) hen
  rw [standingCheck_of_some hl hlast]
  unfold Traffic.raiseMany
  rw [hctl]

theorem standingCheck_bump (hl : (v.passes.get p).mode.isLive = true) (hlast : (standingOrders v p tr).getLast? = some last)
    (hen : (v.tables.notices.get .forced).enabled = true)
    (h : ∃ e ∈ (ordered v p tr).ctl.notices, e.source = .pass p ∧ e.cls = .forced) : tr.standingCheck v p =
      { ordered v p tr with
        ctl := { (ordered v p tr).ctl with
          notices := (ordered v p tr).ctl.notices.map fun e =>
            if e.source = .pass p ∧ e.cls = .forced then
              { e with count := min (e.count + (standingOrders v p tr).length) 255, detail := last.2.code }
            else e } } := by
  obtain ⟨y, hy, hys, hyc⟩ := h
  have hctl := ControlSide.raiseMany_bump (tb := v.tables) (k := (standingOrders v p tr).length) (n := last.2.code) hen hy hys hyc
  rw [standingCheck_of_some hl hlast]
  unfold Traffic.raiseMany
  rw [hctl]
  simp only [NoticeEntry.isFor_iff]
  rfl

/-- The one FORCED entry that a check makes. -/
def madeForced (v : View) (p : PassId) (k n : Nat) : NoticeEntry :=
  { source := .pass p, cls := .forced, priority := (v.tables.notices.get .forced).priority, count := k, detail := n }

theorem madeNotice_forced {k n : Nat} (h : k ≤ 8) : madeNotice v.tables (.pass p) .forced k n = madeForced v p k n := by
  have hmin : min k Config.countCeiling = k := Nat.min_eq_left (by simp only [Config.countCeiling]; omega)
  unfold madeNotice madeForced
  rw [hmin]

theorem standingCheck_busy (hl : (v.passes.get p).mode.isLive = true) (hlast : (standingOrders v p tr).getLast? = some last)
    (hen : (v.tables.notices.get .forced).enabled = true)
    (h : ∀ e ∈ (ordered v p tr).ctl.notices, ¬(e.source = .pass p ∧ e.cls = .forced)) {x : Sending}
    (hx : (ordered v p tr).ctl.port.sending = some x) : tr.standingCheck v p =
      { ordered v p tr with
        ctl := { (ordered v p tr).ctl with
          notices := (ordered v p tr).ctl.notices ++ [madeForced v p (standingOrders v p tr).length last.2.code] } } := by
  have hctl := ControlSide.raiseMany_busy (tb := v.tables) (k := (standingOrders v p tr).length) (n := last.2.code) hen hx h
  rw [standingCheck_of_some hl hlast]
  unfold Traffic.raiseMany
  rw [hctl, madeNotice_forced standingOrders_length]

theorem standingCheck_idle (hl : (v.passes.get p).mode.isLive = true) (hlast : (standingOrders v p tr).getLast? = some last)
    (hen : (v.tables.notices.get .forced).enabled = true) (hx : (ordered v p tr).ctl.port.sending = none)
    (hq : (ordered v p tr).ctl.port.queue = []) (hn : (ordered v p tr).ctl.notices = []) : tr.standingCheck v p =
      { ordered v p tr with
        ctl := { (ordered v p tr).ctl with
          port := { (ordered v p tr).ctl.port with
            sending := some
              { tel := noticeTelegram v.tables.device (madeForced v p (standingOrders v p tr).length last.2.code)
                endsInReset := false } } } } := by
  have hctl := ControlSide.raiseMany_idle (tb := v.tables) (src := .pass p) (k := (standingOrders v p tr).length)
    (n := last.2.code) hen hx hq hn
  rw [standingCheck_of_some hl hlast]
  unfold Traffic.raiseMany
  rw [hctl, madeNotice_forced standingOrders_length]

theorem standingCheck_announced (hl : (v.passes.get p).mode.isLive = true)
    (hlast : (standingOrders v p tr).getLast? = some last) :
    announced v.tables (.pass p) .forced last.2.code tr.ctl (tr.standingCheck v p).ctl :=
  Heard.announced fun hen => standingCheck_heard hl hlast rfl hen .refl'

end standing

/-- Settles O24: the round by its re-judgements, the standing check by the raises that coalesce. -/
theorem roundKeepsWhatStaysHeld : Obligations.RoundKeepsWhatStaysHeld := by
  refine ⟨fun v p tr => ⟨fun q hq => (round_spares hq.symm tr).2.1, round_stays, rfl⟩, ?_, ?_,
    fun v p a tr => ⟨rfl, rfl, rfl⟩, fun p s => ⟨rfl, rfl, fun _ _ _ => rfl, rfl⟩⟩
  · intro v tr e a vd out answers
    have hvd : judge v tr e.actuator (requestedValue e.value) = vd := rfl
    refine ⟨rejudge_refused hvd, fun h => ?_, fun h => ⟨fun hl => ?_, fun hl hf => ?_, fun hl hf => ?_⟩⟩
    · rw [rejudge_held hvd h]
      simp only [HeldEntry.isFor, decide_eq_true_eq]
      rfl
    · exact (rejudge_allowed hvd h).trans (release_turned (enlist_lineFull hl))
    · exact (rejudge_allowed hvd h).trans (release_turned (enlist_queueFull hl hf))
    · obtain ⟨taken, he, htaken⟩ := enlist_taken (v := v) (a := a) (tr := tr.unpark a) (n := vd.value) (r := e.requester)
        (c := e.carried) hl hf
      exact ⟨taken, (rejudge_allowed hvd h).trans (release_taken he), htaken⟩
  · intro v p tr forced checked
    have hforced : forced = standingOrders v p tr := standingOrders_eq.symm
    refine ⟨standingCheck_of_rest, fun hl => ?_⟩
    rw [hforced]
    refine ⟨standingCheck_of_none, fun last hlast => ?_, fun hord f hf => standingCheck_orderedSafe hl hord hf,
      fun a ha => (standingCheck_trims ha).1, fun f hlast => standingCheck_announced hl hlast⟩
    intro safe c control made
    have hsafe : safe = ordered v p tr := ordered_takeSafe.symm
    have hmade : made = madeForced v p (standingOrders v p tr).length last.2.code := rfl
    simp only [c, hmade, hsafe]
    exact ⟨standingCheck_disabled hl hlast, fun hen => ⟨standingCheck_bump hl hlast hen, fun hnone =>
      ⟨fun x hx => standingCheck_busy hl hlast hen hnone hx, standingCheck_idle hl hlast hen⟩⟩⟩

end Sys2Proof.Machine

/-! The Action Queue's events: confirmation and promotion (R98, R139, R140, R148) and the failure of an action (R141 to R143). -/

namespace Sys2Proof.Machine

/-! ### Promotion (R140) -/

section promotion

variable {v : View} {tb : Tables} {tr tr' : Traffic} {a b : Actuator} {e w : ActionEntry} {l pre post : List ActionEntry}
  {cp : PointEntry} {n k : Nat}

theorem eraseP_filter_not {α : Type} {f : α → Bool} (l : List α) :
    (l.eraseP f).filter (fun x => !f x) = l.filter fun x => !f x := by
  induction l with
  | nil => rfl
  | cons x xs ih => cases h : f x <;> simp [h, ih]

theorem eraseP_filter {α : Type} {f : α → Bool} (l : List α) : (l.eraseP f).filter f = (l.filter f).tail := by
  induction l with
  | nil => rfl
  | cons x xs ih => cases h : f x <;> simp [h, ih]

theorem markIssued_first {d : Nat} {tel : Telegram} (hpre : ∀ x ∈ pre, x.isWaitingFor a = false) (hw : w.isWaitingFor a = true) :
    markIssued a n d tel (pre ++ w :: post) = pre ++ { w with value := n, state := .issued d false tel } :: post := by
  induction pre with
  | nil => simp [markIssued, hw]
  | cons x xs ih =>
    rw [List.cons_append, markIssued, if_neg (by simp [hpre x]), ih fun y hy => hpre y (List.mem_cons_of_mem _ hy)]
    rfl

/-- R138: the oldest WAITING entry of the actuator is issued in its place. -/
theorem issue_first (hcp : commandPoint v.tables a = some cp) (hl : tr.actions = pre ++ w :: post)
    (hpre : ∀ x ∈ pre, x.isWaitingFor a = false) (hw : w.isWaitingFor a = true) :
    tr.issue v a n = Traffic.placeField v.tables
      { tel := actionTelegram v.tables.device.ownStation cp w n, cls := .action a w.direction }
      { tr with
        actions := pre ++ { w with
          value := n
          state := .issued (cp.response.getD 0) false (actionTelegram v.tables.device.ownStation cp w n) } :: post
        history := noteIssue a w.direction tr.history } := by
  have hfind : tr.actions.find? (ActionEntry.isWaitingFor a) = some w := by
    rw [hl]
    exact find?_first hpre hw
  unfold Traffic.issue
  simp only [hcp, hfind]
  rw [hl, markIssued_first hpre hw]

/-- The answers touch the Control Port alone. -/
theorem answerEntry_actions {ans : Answer} {reason : Reason} (m : List ActionEntry) :
    { tr.answerEntry tb e ans reason n with actions := m } = Traffic.answerEntry tb e ans reason n { tr with actions := m } := by
  unfold Traffic.answerEntry
  cases e.origin <;> rfl

theorem hasNonSafe_of_filter (h : tr'.actions.filter (fun x => decide (x.actuator ≠ a)) = tr.actions.filter fun x => decide (x.actuator ≠ a))
    (hb : b ≠ a) : hasNonSafe tr' b = hasNonSafe tr b := by
  have hmem : ∀ t : Traffic, hasNonSafe t b = true ↔
      ∃ x ∈ t.actions.filter (fun x => decide (x.actuator ≠ a)), x.actuator = b ∧ x.direction = .nonSafe := fun t => by
    rw [hasNonSafe_iff]
    refine exists_congr fun x => ⟨fun ⟨hx, hxb, hd⟩ => ⟨List.mem_filter.mpr ⟨hx, ?_⟩, hxb, hd⟩, fun ⟨hx, h⟩ =>
      ⟨(List.mem_filter.mp hx).1, h⟩⟩
    simp [hxb, hb]
  rw [Bool.eq_iff_iff, hmem, hmem, h]

/-- R115, R116: a HOLD or REFUSE reads neither the value asked for nor the actuator's own entries. -/
theorem judge_turned_away (hs : tr'.actions.filter (fun x => decide (x.actuator ≠ a)) = tr.actions.filter fun x => decide (x.actuator ≠ a))
    (h : (judge v tr a n).severity = .hold ∨ (judge v tr a n).severity = .refuse) :
    (judge v tr' a k).severity = (judge v tr a n).severity ∧ (judge v tr' a k).reason = (judge v tr a n).reason := by
  have hpartner : ∀ b, b ≠ a → hasNonSafe tr' b = hasNonSafe tr b := fun b hb => hasNonSafe_of_filter hs hb
  have hmet : preconditionsMet v tr' a ↔ preconditionsMet v tr a := by
    cases a with
    | gate p c => exact Iff.rfl
    | signal p t =>
      have hb := hpartner (.breaker p t) (by simp)
      simp only [preconditionsMet, hb]
    | breaker p t =>
      have hb := hpartner (.signal p t) (by simp)
      simp only [preconditionsMet, hb]
  have hreason : unmetReason v tr' a = unmetReason v tr a := by
    cases a with
    | gate p c => rfl
    | signal p t =>
      have hb := hpartner (.breaker p t) (by simp)
      simp only [unmetReason, hb]
    | breaker p t => rfl
  by_cases hr : refused v a
  · rw [judge_of_refused hr, judge_of_refused hr]
    exact ⟨rfl, rfl⟩
  · have hh : heldBack v tr a := by
      obtain h | h := h
      · exact (judge_hold_iff.mp h).2
      · exact absurd (judge_refuse_iff.mp h) hr
    have hh' : heldBack v tr' a := hh.imp_right fun h => hmet.not.mpr h
    rw [judge_of_held hr hh, judge_of_held hr hh']
    unfold holdReason
    rw [hreason]
    exact ⟨rfl, rfl⟩

theorem promoteLine_turned_away {reason : Reason} (l : List ActionEntry) : ∀ tr : Traffic,
    (∀ tr' : Traffic, tr'.actions.filter (fun x => decide (x.actuator ≠ a)) = tr.actions.filter (fun x => decide (x.actuator ≠ a)) →
      ∀ k, ((judge v tr' a k).severity = .hold ∨ (judge v tr' a k).severity = .refuse) ∧ (judge v tr' a k).reason = reason) →
    tr.actions.filter (ActionEntry.isWaitingFor a) = l → tr.promoteLine v a l = withoutWaiting v.tables a reason tr := by
  induction l with
  | nil =>
    intro tr _ hl
    have hnone : ∀ x ∈ tr.actions, x.isWaitingFor a = false := fun x hx => by simpa using List.filter_eq_nil_iff.mp hl x hx
    rw [withoutWaiting_of_none reason hnone]
    rfl
  | cons e es ih =>
    intro tr hturned hl
    obtain ⟨hsev, hreason⟩ := hturned tr rfl e.value
    have hstep : tr.promoteLine v a (e :: es) = Traffic.promoteLine v a es
        (Traffic.answerEntry v.tables e .cancelled reason 0
          { tr with actions := tr.actions.eraseP (ActionEntry.isWaitingFor a) }) := by
      rw [Traffic.promoteLine]
      obtain h | h := hsev <;> simp only [h, hreason]
    have hothers : (tr.actions.eraseP (ActionEntry.isWaitingFor a)).filter (fun x => decide (x.actuator ≠ a))
        = tr.actions.filter fun x => decide (x.actuator ≠ a) :=
      filter_eraseP_of_disjoint (fun x hx => ActionEntry.isWaitingFor_of_ne (of_decide_eq_true hx)) _
    have hactions : (Traffic.answerEntry v.tables e .cancelled reason 0
        { tr with actions := tr.actions.eraseP (ActionEntry.isWaitingFor a) }).actions
          = tr.actions.eraseP (ActionEntry.isWaitingFor a) := Traffic.answerEntry_actions
    rw [hstep, ih]
    · unfold withoutWaiting
      simp only [hactions, eraseP_filter, eraseP_filter_not, hl]
      rw [answerEntry_actions]
      rfl
    · intro tr' htr'
      exact hturned tr' (htr'.trans ((congrArg _ hactions).trans hothers))
    · rw [hactions, eraseP_filter, hl]
      rfl

/-- R139, R140: the traffic in which the confirmed entry is retired. -/
def retiredOf (a : Actuator) (d : Direction) (tr : Traffic) : Traffic :=
  { withoutIssued a tr with history := noteRetired a d tr.history }

theorem confirm_of_none (h : issuedEntry tr a = none) : tr.confirm v a = tr := by
  unfold Traffic.confirm
  rw [h]

theorem confirm_of_not (h : issuedEntry tr a = some e) (hc : confirms v e = false) : tr.confirm v a = tr := by
  unfold Traffic.confirm
  simp only [h, hc]
  rfl

theorem confirm_of (h : issuedEntry tr a = some e) (hc : confirms v e = true) :
    tr.confirm v a = (retiredOf a e.direction tr).promote v a := by
  obtain rfl := issuedEntry_actuator h
  unfold Traffic.confirm
  simp only [h, hc, if_true]
  rfl

theorem promote_of_none (h : ∀ x ∈ tr.actions, x.isWaitingFor a = false) : tr.promote v a = tr := by
  have hnil : tr.actions.filter (ActionEntry.isWaitingFor a) = [] := List.filter_eq_nil_iff.mpr fun x hx => by simp [h x hx]
  unfold Traffic.promote
  rw [hnil]
  rfl

theorem filter_waiting_first (hpre : ∀ x ∈ pre, x.isWaitingFor a = false) (hw : w.isWaitingFor a = true) :
    (pre ++ w :: post).filter (ActionEntry.isWaitingFor a) = w :: post.filter (ActionEntry.isWaitingFor a) := by
  have hnil : pre.filter (ActionEntry.isWaitingFor a) = [] := List.filter_eq_nil_iff.mpr fun x hx => by simp [hpre x hx]
  rw [List.filter_append, hnil, List.nil_append, List.filter_cons_of_pos hw]

/-- R140: the oldest WAITING entry, judged PASS or CLAMP, is issued. -/
theorem promote_issued (hl : tr.actions = pre ++ w :: post) (hpre : ∀ x ∈ pre, x.isWaitingFor a = false)
    (hw : w.isWaitingFor a = true) {vd : Verdict} (hvd : judge v tr a w.value = vd) (h : vd.severity = .pass ∨ vd.severity = .clamp) :
    tr.promote v a =
      if vd.value < w.value then entryAnswered v.tables w .clamped vd.reason vd.value (tr.issue v a vd.value)
      else tr.issue v a vd.value := by
  unfold Traffic.promote
  rw [hl, filter_waiting_first hpre hw, Traffic.promoteLine]
  obtain h | h := h <;> simp only [hvd, h] <;> rfl

/-- R140: judged HOLD or REFUSE, the whole line goes. -/
theorem promote_turned_away {vd : Verdict} (hvd : judge v tr a n = vd) (h : vd.severity = .hold ∨ vd.severity = .refuse) :
    tr.promote v a = withoutWaiting v.tables a vd.reason tr := by
  subst hvd
  refine promoteLine_turned_away _ tr (fun tr' htr' k => ?_) rfl
  obtain ⟨hsev, hreason⟩ := judge_turned_away (k := k) htr' h
  rw [hsev]
  exact ⟨h, hreason⟩

end promotion

/-! ### Movement histories (R98) -/

section history

variable {h : Quad (Duo GateHistory)} {p q : PassId} {c g : ChuteId} {x : GateHistory}

theorem history_set_get : ((h.set p ((h.get p).set c x)).get q).get g = if q = p ∧ g = c then x else (h.get q).get g := by
  rw [Quad.get_set]
  by_cases hq : q = p
  · subst hq
    rw [if_pos rfl, Duo.get_set]
    simp
  · rw [if_neg hq, if_neg fun hn => hq hn.1]

end history

/-- Settles O25: an entry is retired, and its line promoted by the verdict of the oldest. -/
theorem confirmationRetires : Obligations.ConfirmationRetires := by
  refine ⟨fun v tr a => ⟨fun e he hc => ?_, fun e he hc => confirm_of_not he hc, confirm_of_none⟩, fun v e => ?_, fun h d p => ?_,
    fun tr a e => ⟨ActionEntry.isIssuedFor_iff, ActionEntry.isWaitingFor_iff, ?_, fun pre post hl hpre hx => ?_⟩⟩
  · intro retired
    have hconfirm : tr.confirm v a = retired.promote v a := confirm_of he hc
    rw [hconfirm]
    refine ⟨fun hnone => promote_of_none fun x hx => hnone x (List.mem_of_mem_eraseP hx), ?_⟩
    intro pre w post hl hpre hw vd
    refine ⟨fun h cp hcp => ?_, fun h => promote_turned_away rfl h⟩
    intro tel issued
    have hissued : retired.issue v a vd.value = issued := issue_first hcp hl hpre hw
    rw [promote_issued hl hpre hw rfl h, hissued]
  · refine ⟨fun p c ha => ?_, fun p t ha => ?_, fun p t ha => ?_⟩
    · intro tol
      unfold confirms
      rw [ha]
      cases hd : e.direction <;> cases hg : ((v.passes.get p).chutes.get c).gate <;> simp [tol, hg]
    · unfold confirms
      rw [ha]
      cases hd : e.direction <;> simp
    · unfold confirms
      rw [ha]
      cases hd : e.direction <;> simp
  · refine ⟨fun c q g => ?_, fun t => ⟨rfl, rfl, rfl, rfl⟩⟩
    intro old
    refine ⟨history_set_get.trans ?_, ?_⟩
    · by_cases hg : q = p ∧ g = c
      · obtain ⟨rfl, rfl⟩ := hg
        cases d <;> rfl
      · rw [if_neg hg, if_neg hg]
    · cases d with
      | nonSafe => simp [noteRetired, old]
      | safe =>
        refine history_set_get.trans ?_
        by_cases hg : q = p ∧ g = c
        · obtain ⟨rfl, rfl⟩ := hg
          simp [old]
        · have hg' : ¬(q = p ∧ g = c ∧ Direction.safe = .safe) := fun h => hg ⟨h.1, h.2.1⟩
          rw [if_neg hg, if_neg hg']
  · exact List.find?_eq_none.trans (by simp)
  · unfold issuedEntry
    rw [hl]
    exact find?_first hpre hx

/-! ### Failure (R141 to R143) -/

section failure

variable {s : State} {e : ActionEntry} {tel : Option Interrupted} {v : View} {tr : Traffic} {a b : Actuator} {p : PassId}

theorem failAction_eq_afterFailure : s.failAction e tel = afterFailure e tel s := by
  rw [failAction_eq]
  have hnoted : s.failureNoted e = State.raise (.pass e.actuator.pass) .actionFail
      (10 * (match e.actuator with
        | .gate _ _ => if e.direction = .nonSafe then 1 else 2
        | .signal _ _ => if e.direction = .nonSafe then 3 else 4
        | .breaker _ _ => if e.direction = .nonSafe then 5 else 6) + e.actuator.object.val)
      { s with traffic := withoutWaiting s.tables e.actuator .predecessor (withoutIssued e.actuator s.traffic) } := by
    unfold State.failureNoted
    cases e.actuator <;> cases e.direction <;> rfl
  have horiginate : ∀ u : State, u.originate e.actuator =
      if hasCommandPoint u.tables e.actuator then
        { u with traffic := u.traffic.takeSafe u.view e.actuator none noCarried }
      else u := fun u => by
    have htraffic : u.originate e.actuator = { u with traffic := u.traffic.originate u.view e.actuator } := rfl
    rw [htraffic, Traffic.originate]
    split
    · exact (if_pos (by assumption)).symm
    · exact (if_neg (by assumption)).symm
  unfold afterFailure
  rw [horiginate, hnoted]
  cases e.direction <;> rfl

/-- The line of an actuator begins with an ISSUED safe entry. -/
def HeadSafe (tr : Traffic) (a : Actuator) : Prop :=
  ∃ f rest, restLine tr a = f :: rest ∧ f.isIssuedFor a = true ∧ f.direction = .safe

theorem HeadSafe.of_orderedSafe (h : orderedSafe tr a) : HeadSafe tr a := by
  obtain ⟨f, hf, hi, hd⟩ := orderedSafe_iff.mp h
  exact ⟨f, [], hf, hi, hd⟩

/-- R137: a command taken by a line with entries joins it at the back. -/
theorem enlist_behind {n : Nat} {r : Requester} {c : Carried} (h : lineOf tr a ≠ []) :
    ∃ more, restLine (tr.enlist v a n r c).1 a = restLine tr a ++ more := by
  have hkept : ∃ more, restLine tr a = restLine tr a ++ more := ⟨[], (List.append_nil _).symm⟩
  have hjoined : ∃ more, restLine { tr with actions := tr.actions ++ [admittedEntry a n r c] } a = restLine tr a ++ more := by
    have hline := lineOf_join_self (tr := tr) (n := tr.tagCounter) (b := a) (e := admittedEntry a n r c) rfl
    exact ⟨_, (congrArg (List.map _) hline).trans (List.map_append ..)⟩
  have hempty : (tr.actions.filter fun e => decide (e.actuator = a)).isEmpty = false := by simpa [lineOf] using h
  unfold Traffic.enlist
  simp only
  split
  · exact hkept
  · split
    · exact hkept
    · rw [hempty]
      exact hjoined

/-- A re-judgement puts nothing before the entries of a line. -/
theorem rejudge_headSafe {x : HeldEntry} (h : HeadSafe tr a) :
    HeadSafe (tr.rejudge v x) a := by
  have hsame : ∀ {u : Traffic}, restLine u a = restLine tr a → HeadSafe u a := fun hu => by
    obtain ⟨f, rest, hf, hi, hd⟩ := h
    exact ⟨f, rest, hu.trans hf, hi, hd⟩
  obtain ⟨u, reason, ans, n, he, hu | ⟨hu, -⟩⟩ | ⟨reason, he⟩ := rejudge_cases v tr x <;> rw [he]
  · exact hsame (by rw [hu]; rfl)
  · have hline : HeadSafe u a := by
      rw [hu]
      by_cases ha : a = x.actuator
      · subst ha
        obtain ⟨f, rest, hf, hi, hd⟩ := h
        have hf' : restLine (tr.unpark x.actuator) x.actuator = f :: rest := hf
        have hne : lineOf (tr.unpark x.actuator) x.actuator ≠ [] := fun hnil => by
          rw [lineOf_eq_nil_iff.mp hnil] at hf'
          cases hf'
        obtain ⟨more, hmore⟩ := enlist_behind (v := v) (n := (judge v tr x.actuator (requestedValue x.value)).value)
          (r := x.requester) (c := x.carried) hne
        exact ⟨f, rest ++ more, by rw [hmore, hf']; rfl, hi, hd⟩
      · exact hsame (enlist_line_of_ne _ _ _ ha)
    obtain ⟨f, rest, hf, hi, hd⟩ := hline
    exact ⟨f, rest, hf, hi, hd⟩
  · exact hsame rfl

theorem round_headSafe (h : HeadSafe tr a) : HeadSafe (tr.round v p) a := by
  unfold Traffic.round
  generalize tr.pool.filter (HeldEntry.isOf p) = l
  induction l generalizing tr with
  | nil => exact h
  | cons x xs ih => exact ih (rejudge_headSafe h)

/-- R124: a standing check leaves an actuator ordered safe so. -/
theorem standingCheck_keeps_orderedSafe (hord : LinesOrdered tr) (h : orderedSafe tr a) : orderedSafe (tr.standingCheck v p) a := by
  by_cases hl : (v.passes.get p).mode.isLive = true
  · by_cases hf : ∃ f ∈ standingOrders v p tr, f.1 = a
    · obtain ⟨f, hf, rfl⟩ := hf
      exact standingCheck_orderedSafe hl hord hf
    · exact orderedSafe_of_trimmed h (standingCheck_trims fun f hfm hfa => hf ⟨f, hfm, hfa⟩)
  · rw [standingCheck_of_rest (by simpa using hl)]
    exact h

/-- R143: the failure's first steps leave the actuator no entry. -/
theorem failureNoted_sound (h : CommandsSound s) : CommandsSound (s.failureNoted e) := by
  obtain ⟨hp, hs⟩ := (commandsSound_iff s).mp h
  exact (commandsSound_iff _).mpr ⟨hp, (dropFailed_sound hs).of_same (.of_eq rfl) rfl⟩

theorem failureNoted_line (h : CommandsSound s) : lineOf (s.failureNoted e).traffic e.actuator = [] :=
  dropFailed_line (((commandsSound_iff s).mp h).2.shaped _)

/-- R143, R144: a failed non-safe action leaves a safe one at the head of its line. -/
theorem failAction_headSafe (h : CommandsSound s) (hd : e.direction = .nonSafe) (hcp : hasCommandPoint s.tables e.actuator = true) :
    HeadSafe (s.failAction e tel).traffic e.actuator := by
  obtain ⟨hp, hs⟩ := (commandsSound_iff _).mp (failureNoted_sound (e := e) h)
  have hsafe : orderedSafe ((s.failureNoted e).originate e.actuator).traffic e.actuator :=
    originate_orderedSafe hcp (hs.shaped _)
  have hord : LinesOrdered ((s.failureNoted e).originate e.actuator).traffic := originate_ordered hs.ordered
  rw [failAction_eq, hd]
  generalize (s.failureNoted e).originate e.actuator = u at hsafe hord
  show HeadSafe (u.alertCause e.actuator.pass .actionFail tel).traffic e.actuator
  cases hm : (u.pass e.actuator.pass).mode with
  | running =>
    rw [alertCause_running hm]
    refine round_headSafe (.of_orderedSafe ?_)
    exact standingCheck_keeps_orderedSafe hord hsafe
  | alert =>
    rw [alertCause_join (.inl hm)]
    exact .of_orderedSafe hsafe
  | tripped =>
    rw [alertCause_join (.inr hm)]
    exact .of_orderedSafe hsafe
  | isolated =>
    rw [alertCause_rest (.inl hm)]
    exact .of_orderedSafe hsafe
  | unconfigured =>
    rw [alertCause_rest (.inr hm)]
    exact .of_orderedSafe hsafe

theorem HeadSafe.line (h : HeadSafe tr a) : ∃ f rest, lineOf tr a = f :: rest ∧ f.isIssuedFor a = true ∧ f.direction = .safe := by
  obtain ⟨f, rest, hf, hi, hd⟩ := h
  obtain ⟨x, xs, hx, rfl, -⟩ := List.map_eq_cons_iff.mp hf
  exact ⟨x, xs, hx, by simpa using hi, by simpa using hd⟩

theorem mode_live_iff {m : PassState} : m.isLive = true ↔ m = .running ∨ m = .alert := by cases m <;> simp [PassState.isLive]

/-- A trip cause of a pass out of service, or TRIPPED, commands nothing. -/
theorem tripCause_traffic_of_rest {c : Cause} (h : (s.pass p).mode.isLive = false) : (s.tripCause p c tel).traffic = s.traffic := by
  cases hm : (s.pass p).mode with
  | running => rw [hm] at h; cases h
  | alert => rw [hm] at h; cases h
  | tripped => rw [tripCause_join hm]; rfl
  | isolated => rw [tripCause_rest (.inl hm)]
  | unconfigured => rw [tripCause_rest (.inr hm)]

/-- R143, R155: a failed safe action of a live pass is commanded again. -/
theorem failAction_safe_live (h : CommandsSound s) (hd : e.direction = .safe) (hcp : hasCommandPoint s.tables e.actuator = true)
    (hl : (s.pass e.actuator.pass).mode.isLive = true) : orderedSafe (s.failAction e tel).traffic e.actuator := by
  have hl' : ((s.failureNoted e).pass e.actuator.pass).mode.isLive = true := hl
  rw [failAction_eq, hd]
  show orderedSafe ((s.failureNoted e).tripCause e.actuator.pass .safeFail tel).traffic e.actuator
  rw [tripCause_live (mode_live_iff.mp hl')]
  exact enterTripped_orderedSafe (failureNoted_sound h) rfl hcp

theorem failAction_safe_rest (h : CommandsSound s) (hd : e.direction = .safe)
    (hl : (s.pass e.actuator.pass).mode.isLive = false) : lineOf (s.failAction e tel).traffic e.actuator = [] := by
  have hl' : ((s.failureNoted e).pass e.actuator.pass).mode.isLive = false := hl
  rw [failAction_eq, hd]
  show lineOf ((s.failureNoted e).tripCause e.actuator.pass .safeFail tel).traffic e.actuator = []
  rw [tripCause_traffic_of_rest hl']
  exact failureNoted_line h

/-- R143, R152: the record after a failure. -/
theorem failAction_record : (s.failAction e tel).pass e.actuator.pass =
    if e.direction = .nonSafe then (s.pass e.actuator.pass).withAlert .actionFail s.time tel
    else (s.pass e.actuator.pass).withTrip .safeFail s.time tel := by
  rw [failAction_eq]
  cases e.direction with
  | nonSafe => exact alertCause_record
  | safe => exact tripCause_record

theorem deadlineRunsOut_some (h : issuedEntry s.traffic a = some e) : s.deadlineRunsOut a = s.failAction e none := by
  unfold State.deadlineRunsOut
  rw [h]

theorem deadlineRunsOut_none (h : issuedEntry s.traffic a = none) : s.deadlineRunsOut a = s := by
  unfold State.deadlineRunsOut
  rw [h]

theorem hasCommandPoint_of_issued (hs : CommandsSound s) (h : issuedEntry s.traffic a = some e) :
    hasCommandPoint s.tables a = true := by
  obtain rfl := issuedEntry_actuator h
  obtain ⟨-, ⟨hentries, -⟩, -⟩ := hs
  exact (hentries e (List.mem_of_find?_eq_some h)).1

end failure

/-- Settles O26: the failure's steps in their order, then the cause it hands. -/
theorem failedActionMakesSafe : Obligations.FailedActionMakesSafe := by
  refine ⟨fun a s e hs hr he => ?_, fun a s he hr => ?_⟩
  · have hcp := hasCommandPoint_of_issued hs he
    obtain rfl := issuedEntry_actuator he
    have hfail := deadlineRunsOut_some he
    have hwithin : Within e.actuator.pass s (s.failAction e none) := failAction_within rfl none
    refine ⟨s.failAction e none, ?_, failAction_eq_afterFailure, hwithin.1, hwithin.elsewhere, failAction_record,
      fun hd => ⟨?_, (failAction_headSafe hs hd hcp).line⟩,
      fun hd => ⟨?_, failAction_safe_live hs hd hcp, failAction_safe_rest hs hd⟩⟩
    · rw [(deadlineExpiry_expires _).exec_idle hr, hfail]
    · rw [failAction_pass rfl, hd]
    · rw [failAction_pass rfl, hd]
  · rw [(deadlineExpiry_expires a).exec_idle hr, deadlineRunsOut_none he]


end Sys2Proof.Machine

/-! Management requests (R167 to R175): how a request is dealt with in the order of R169, and the readings. -/

namespace Sys2Proof.Machine

section requests

variable {t : Telegram} {s : State} {c : Instr} {r : Request} {rep : Reply} {f : TableField} {x : Int} {g : PassId → Reply}
variable {carryOut : State → Reply} {p : PassId}

/-- A request is answered with its reply, made on the state its receipt left. -/
theorem exec_request (hc : arrival c = some (.control, t)) (hf : fate .control t s = .request r)
    (hr : requestReply r t (heard .control s) = rep) : exec c s = .next (respond t r.isReset rep) := by
  rw [exec_of_fate hc hf, deal_request, hr]

theorem forPass_none (h : requestPass t = none) : forPass t s g = refuse s .refusedRange := by
  unfold forPass
  rw [h]

theorem forPass_some (h : requestPass t = some p) : forPass t s g = g p := by
  unfold forPass
  rw [h]

theorem checkedWrite_state (h : writeAllowed s f = false) : checkedWrite f x s carryOut = refuse s .refusedState := by
  simp [checkedWrite, h]

theorem checkedWrite_range (h : writeAllowed s f = true) (hx : inRange x f = false) :
    checkedWrite f x s carryOut = refuse s .refusedRange := by
  simp [checkedWrite, h, hx]

theorem checkedWrite_carried (h : writeAllowed s f = true) (hx : inRange x f = true) :
    checkedWrite f x s carryOut = carryOut s := by
  simp [checkedWrite, h, hx]

theorem requestPass_none (h : 4 < t.table.toNat) : requestPass t = none := by
  have : ¬t.table.toNat < 4 := by omega
  simp [requestPass, indexBelow, this]

end requests

/-! ### Status items (R167) -/

section items

variable {s : State} {p : PassId} {x : Pass} {code k : Nat}

theorem statusItem_pass (h : code ≤ 28) : statusItem s code (some p) k = passItem (s.pass p) code k := by
  have : ¬29 ≤ code := by omega
  simp [statusItem, this]

theorem statusItem_none (h : code ≤ 28) : statusItem s code none k = none := by
  have : ¬29 ≤ code := by omega
  simp [statusItem, this]

theorem statusItem_device {o : Option PassId} (h : 29 ≤ code) : statusItem s code o k = deviceItem s code k := by
  simp [statusItem, h]

theorem orMinusOne_map {α : Type} {o : Option α} {f : α → Int} : orMinusOne (o.map f) = (o.map f).getD (-1) := rfl

/-- A list of values read by index is a table of the indices below its length. -/
theorem alarmItem_eq (r : AlarmRecord) : alarmItem r k =
    ([(match r.level with
        | .quiet => 0
        | .alert => 1
        | .trip => 2), (match r.primary with
        | none => 0
        | some c => (c.code : Int)), (secondaryCode r.secondary : Int), (r.raisedAt.toNat : Int), (r.h : Int), (r.hc : Int),
      (r.hs : Int), (if r.telegram.isSome then 1 else 0), orMinusOne (r.telegram.map fun x => (x.src.toNat : Int)),
      orMinusOne (r.telegram.map fun x => (x.kind.toNat : Int)), orMinusOne (r.telegram.map fun x => (x.point.toNat : Int)),
      orMinusOne (r.telegram.map fun x => (x.tag.toNat : Int)),
      orMinusOne (r.telegram.map fun x => x.value.toInt)] : List Int)[k]? := by
  match k with
  | 0 | 1 | 2 | 3 | 4 | 5 | 6 | 7 | 8 | 9 | 10 | 11 | 12 => rfl
  | n + 13 => rfl

theorem sampleItem_none {e : Estimate} (h : e.sample = none) : sampleItem e k = if k ≤ 3 then some (-1) else none := by
  match k with
  | 0 | 1 | 2 | 3 => simp [sampleItem, h, orMinusOne]
  | n + 4 => simp [sampleItem]

theorem sampleItem_some {e : Estimate} {sm : Sample} (h : e.sample = some sm) : sampleItem e k =
    ([(sm.distance : Int), (match sm.quality with
      | .good => 0
      | .uncertain => 1
      | .bad => 2), (if sm.fresh then 0 else 1), (if sm.inexact then 1 else 0)] : List Int)[k]? := by
  match k with
  | 0 | 1 | 2 | 3 => simp [sampleItem, h, orMinusOne] <;> rfl
  | n + 4 => simp [sampleItem]

theorem slotItem_eq (o : Option SlotNotice) : slotItem o k =
    match o with
    | none => [(0 : Int), -1, -1][k]?
    | some n => [(n.kind.code : Int), (n.station.toNat : Int), (n.posted.toNat : Int)][k]? := by
  cases o <;> match k with
    | 0 | 1 | 2 => rfl
    | n + 3 => rfl

theorem originCode_eq (o : Origin) : (originCode o : Int) =
    match o with
    | .tip t => (t.val : Int)
    | .grizzly t => 10 + (t.val : Int)
    | .survey => 20 := by
  cases o <;> simp [originCode]

/-- R167 item 14: index `10 n + field` reads the field of charge `n`. -/
theorem chargeItem_eq {col : Column} {n field : Nat} (hf : field < 10) : chargeItem col (10 * n + field) =
    (col.charges[n]?).bind fun c =>
      ([(c.number.toNat : Int), (originCode c.origin : Int), (c.placed : Int), (c.remaining : Int), (c.wetness.code : Int),
        (if c.oversize then 1 else 0), (c.placedAt.toNat : Int), (match c.merge with
          | none => 0
          | some m => (m.count : Int)), (match c.merge with
          | none => -1
          | some m => (m.latest.toNat : Int))] : List Int)[field]? := by
  have hdiv : (10 * n + field) / 10 = n := by omega
  have hmod : (10 * n + field) % 10 = field := by omega
  unfold chargeItem
  rw [hdiv, hmod]
  cases hc : col.charges[n]? with
  | none => rfl
  | some c =>
    match field with
    | 0 | 1 | 2 | 3 | 4 | 5 | 6 => rfl
    | 7 | 8 => cases hm : c.merge <;> simp [hm, orMinusOne]
    | 9 => rfl

theorem causeSet_code (c : CauseSet) : (c.code : Int) =
    (if c.i then 1 else 0) + (if c.o then 2 else 0) + (if c.u then 4 else 0) + (if c.v then 8 else 0)
      + (match c.g with
          | none => 0
          | some .high => 16
          | some .low => 48) := by
  obtain ⟨i, o, u, v, g⟩ := c
  unfold CauseSet.code flagValue
  push_cast
  cases g with
  | none => simp
  | some d => cases d <;> simp <;> omega

theorem stickyFlags_code (f : StickyFlags) : (f.code : Int) =
    (if f.i then 1 else 0) + (if f.o then 2 else 0) + (if f.u then 4 else 0) + (if f.v then 8 else 0)
      + (if f.g then 16 else 0) := by
  unfold StickyFlags.code flagValue
  push_cast
  rfl

theorem indexBelow_val {n : Nat} (i : Fin n) : indexBelow n i.val = some i := indexBelow_eq_some.mpr rfl

theorem indexBelow_none {n : Nat} (h : n ≤ k) : indexBelow n k = none := by
  have : ¬k < n := by omega
  simp [indexBelow, this]

theorem passItem_tip_none (hc : code ∈ [15, 16, 17, 27, 28]) (h : 3 ≤ k) : passItem x code k = none := by
  have hnone : tipItem x code k = none := by simp [tipItem, indexBelow_none h]
  simp only [List.mem_cons, List.not_mem_nil, or_false] at hc
  obtain rfl | rfl | rfl | rfl | rfl := hc <;> exact hnone

theorem passItem_chute_none (hc : code ∈ [24, 25, 26]) (h : 2 ≤ k) : passItem x code k = none := by
  have hnone : chuteItem x code k = none := by simp [chuteItem, indexBelow_none h]
  simp only [List.mem_cons, List.not_mem_nil, or_false] at hc
  obtain rfl | rfl | rfl := hc <;> exact hnone

theorem head_remaining (l : List Charge) : (match l with
    | [] => 0
    | c :: _ => (c.remaining : Int) : Int) = ((l.head?.map Charge.remaining).getD 0 : Nat) := by cases l <;> rfl

theorem countItem_pass {α : Type} {passOf : α → PassId} (l : List α) (q : PassId) :
    countItem (l.map passOf) q.val = some ((l.filter fun e => decide (passOf e = q)).length : Int) := by
  have hq : q.val ≠ 4 := by omega
  simp only [countItem, hq, if_false, indexBelow_val, Option.map_some, List.filter_map, List.length_map]
  rfl

theorem countItem_all {α : Type} {passOf : α → PassId} (l : List α) : countItem (l.map passOf) 4 = some (l.length : Int) := by
  simp [countItem]

theorem countItem_none {l : List PassId} (h : 5 ≤ k) : countItem l k = none := by
  have hk : k ≠ 4 := by omega
  simp [countItem, hk, indexBelow_none (show 4 ≤ k by omega)]

theorem isolationItem_eq (o : Option PendingIsolation) : isolationItem o k =
    match o with
    | none => [(0 : Int), -1, -1][k]?
    | some i => [(1 : Int), (i.pass.val : Int), (i.station.toNat : Int)][k]? := by
  cases o <;> match k with
    | 0 | 1 | 2 => rfl
    | n + 3 => rfl

end items

/-- Settles O38: request by request, then item by item. -/
theorem readsAnswer : Obligations.ReadsAnswer := by
  refine ⟨fun t s => ⟨fun hf => exec_request rfl hf rfl, fun hf => ⟨fun n hv hn => ?_, fun h => ?_⟩, fun f hf => exec_request rfl hf rfl,
    fun hf => exec_request rfl hf rfl⟩, fun s p => ?_, fun s o => ?_, fun t b r => rfl, fun s => rfl, rfl⟩
  · exact exec_request rfl hf (by
      show readItem t (heard .control s) = _
      rw [readItem, if_pos hv]
      exact congrArg (readValue _) hn)
  · refine exec_request rfl hf ?_
    show readItem t (heard .control s) = refuse _ _
    obtain h | h := h
    · rw [readItem, if_neg h]
    · unfold readItem
      split
      · exact congrArg (readValue _) h
      · rfl
  · refine ⟨fun k => congrArg some (causeSet_code _), fun k => congrArg some (stickyFlags_code _),
      fun h k => sampleItem_none h, fun sm h k => sampleItem_some h, fun k => alarmItem_eq _, fun n field hf => ⟨fun h => ?_, fun c h => ?_⟩,
      fun k => slotItem_eq _, fun k => ⟨rfl, rfl, rfl, rfl, rfl, rfl, rfl, rfl, ?_, rfl, rfl, rfl, rfl, rfl⟩, fun n => ?_, fun n => ?_, fun code k hc hk => ?_,
      fun code k hc hk => ?_, fun k => rfl, fun code k h => statusItem_none h⟩
    · show chargeItem _ _ = none
      rw [chargeItem_eq hf, List.getElem?_eq_none h]
      rfl
    · show chargeItem _ _ = _
      rw [chargeItem_eq hf, h, Option.bind_some, originCode_eq] <;> rfl
    · exact congrArg some (head_remaining _)
    · refine ⟨?_, ?_, ?_, ?_, ?_⟩ <;> refine (congrArg (Option.bind · _) (indexBelow_val n)).trans (congrArg some ?_)
      · rfl
      · rfl
      · show (match ((s.pass p).tips.get n).standing with
          | .below => 0
          | .full => 1 : Int) = _
        cases ((s.pass p).tips.get n).standing <;> rfl
      · rfl
      · rfl
    · refine ⟨?_, ?_, ?_⟩ <;> refine (congrArg (Option.bind · _) (indexBelow_val n)).trans (congrArg some ?_)
      · cases ((s.pass p).chutes.get n).gate <;> rfl
      · rfl
      · cases ((s.pass p).chutes.get n).moisture <;> rfl
    · have h28 : code ≤ 28 := (by decide : ∀ c ∈ [15, 16, 17, 27, 28], c ≤ 28) code hc
      exact (statusItem_pass h28).trans (passItem_tip_none hc hk)
    · have h28 : code ≤ 28 := (by decide : ∀ c ∈ [24, 25, 26], c ≤ 28) code hc
      exact (statusItem_pass h28).trans (passItem_chute_none hc hk)
  · refine ⟨fun q => ⟨countItem_pass _ q, countItem_pass _ q⟩, countItem_all _, countItem_all _,
      fun k hk => ⟨countItem_none hk, countItem_none hk⟩, fun k => ?_, fun k => ⟨?_, rfl, rfl⟩, fun k => ?_, fun code k hk => ?_⟩
    · match k with
      | 0 | 1 => rfl
      | n + 2 => rfl
    · show some ((s.resetCause.code : Nat) : Int) = _
      cases s.resetCause <;> rfl
    · exact isolationItem_eq _
    · obtain ⟨n, rfl⟩ : ∃ n, code = n + 36 := ⟨code - 36, by omega⟩
      exact statusItem_device (by omega)

end Sys2Proof.Machine

/-! Stored fields (R171, R172): the coding and the range of each, and reading after writing. -/

namespace Sys2Proof.Machine

section fields

variable {n : Nat} {x : Int} {e : PointEntry} {sel sel' : PointSel} {pr : PassParams} {ps ps' : ParamSel} {tb : Tables}
variable {f g : TableField}

theorem within_iff {r : Int × Int} : within x r = true ↔ r.1 ≤ x ∧ x ≤ r.2 := by simp [within]

theorem within_nat {a b : Nat} (h : within n (a, b) = true) : a ≤ n ∧ n ≤ b := by
  obtain ⟨h1, h2⟩ := within_iff.mp h
  exact ⟨Int.ofNat_le.mp h1, Int.ofNat_le.mp h2⟩

/-- The codes of a cell in a row. -/
theorem cell_inRange {p : PassId} {r : Row} {c : TableColumn} : inRange x (.cell p r c) = true ↔
    x = 0 ∨ x = 200 ∨ x = 201 ∨ r = .gateOpen ∧ 1 ≤ x ∧ x ≤ 99 := by
  simp only [inRange, Cell.ofCode, Bool.and_eq_true, decide_eq_true_eq]
  constructor
  · rintro ⟨h0, h⟩
    split at h
    · omega
    split at h
    · omega
    split at h
    · omega
    split at h
    · rename_i hn
      exact .inr (.inr (.inr ⟨hn.2, by omega, by omega⟩))
    · exact absurd h (by simp)
  · rintro (rfl | rfl | rfl | ⟨hr, h1, h2⟩)
    · simp
    · simp
    · simp
    · refine ⟨by omega, ?_⟩
      split
      · rfl
      split
      · rfl
      split
      · rfl
      rw [if_pos ⟨by omega, hr⟩]
      rfl

theorem cell_code_ofCode {r : Row} {c : Cell} (h : Cell.ofCode r n = some c) : c.code = n := by
  unfold Cell.ofCode at h
  split at h
  · cases h; simp_all [Cell.code]
  split at h
  · cases h; simp_all [Cell.code]
  split at h
  · cases h; simp_all [Cell.code]
  split at h
  · cases h; rfl
  · cases h

/-- Every code of an enumeration's range is read back. -/
theorem role_ofCode (h1 : 1 ≤ n) (h : n ≤ 14) : ∃ r, Role.ofCode n = some r ∧ r.code = n := by
  interval_cases n <;> exact ⟨_, rfl, rfl⟩

theorem mode_ofCode (h : n ≤ 2) : ∃ m, HandlingMode.ofCode n = some m ∧ m.code = n := by
  interval_cases n <;> exact ⟨_, rfl, rfl⟩

theorem rounding_ofCode (h : n ≤ 2) : ∃ m, Rounding.ofCode n = some m ∧ m.code = n := by
  interval_cases n <;> exact ⟨_, rfl, rfl⟩

theorem boolCode_decide (h : n ≤ 1) : boolCode (decide (n = 1)) = n := by
  interval_cases n <;> rfl

theorem indexBelow_of_lt {k : Nat} (h : n < k) : indexBelow k n = some ⟨n, h⟩ := by simp [indexBelow, h]

theorem byte_toNat (h : n < 256) : (BitVec.ofNat 8 n).toNat = n := by
  rw [BitVec.toNat_ofNat]
  exact Nat.mod_eq_of_lt h

/-- R18, R171: a Point Table field other than Valid reads back its value. -/
theorem PointEntry.read_write (h : sel ≠ .valid) (hx : within n sel.range = true) : (e.write n sel).read sel = n := by
  cases sel with
  | valid => exact absurd rfl h
  | station =>
    obtain ⟨-, hn⟩ := within_nat (a := 1) (b := 253) hx
    exact congrArg Int.ofNat (byte_toNat (by omega))
  | point =>
    obtain ⟨-, hn⟩ := within_nat (a := 0) (b := 63) hx
    exact congrArg Int.ofNat (byte_toNat (by omega))
  | role =>
    obtain ⟨h1, hn⟩ := within_nat (a := 1) (b := 14) hx
    obtain ⟨r, hr, hc⟩ := role_ofCode h1 hn
    simp [PointEntry.write, PointEntry.read, orMinusOne, hr, hc]
  | pass =>
    obtain ⟨-, hn⟩ := within_nat (a := 0) (b := 3) hx
    simp [PointEntry.write, PointEntry.read, orMinusOne, indexBelow_of_lt (show n < 4 by omega)]
  | object =>
    obtain ⟨-, hn⟩ := within_nat (a := 0) (b := 2) hx
    simp [PointEntry.write, PointEntry.read, orMinusOne, indexBelow_of_lt (show n < 3 by omega)]
  | mode =>
    obtain ⟨-, hn⟩ := within_nat (a := 0) (b := 2) hx
    obtain ⟨m, hm, hc⟩ := mode_ofCode hn
    simp [PointEntry.write, PointEntry.read, orMinusOne, hm, hc]
  | scaleNum | scaleDen | response | tolerance => rfl

theorem PointEntry.read_write_ne (h : sel' ≠ sel) : (e.write n sel).read sel' = e.read sel' := by
  cases sel <;> cases sel' <;> first | rfl | exact absurd rfl h

/-- R56, R171: a pass parameter reads back its value. -/
theorem PassParams.read_write (hx : within n ps.range = true) : (pr.write n ps).read ps = n := by
  cases ps with
  | configured | enableI | enableO | enableU | enableV | enableG => exact boolCode_decide (within_nat (a := 0) (b := 1) hx).2
  | density w => cases w <;> rfl
  | rounding =>
    obtain ⟨m, hm, hc⟩ := rounding_ofCode (within_nat (a := 0) (b := 2) hx).2
    simp [PassParams.write, PassParams.read, hm, hc]
  | _ => rfl

theorem PassParams.read_write_ne (h : ps' ≠ ps) : (pr.write n ps).read ps' = pr.read ps' := by
  cases ps with
  | density w =>
    cases w <;> cases ps' with
      | density w' => cases w' <;> first | rfl | exact absurd rfl h
      | _ => rfl
  | _ => cases ps' <;> first | rfl | exact absurd rfl h

theorem NoticeTable.get_set (t : NoticeTable) (c d : NoticeClass) (y : NoticeControl) :
    (t.set c y).get d = if d = c then y else t.get d := by cases c <;> cases d <;> rfl

theorem InterlockTable.row_setRow (t : InterlockTable) (r q : Row) (y : InterlockRow) :
    (t.setRow r y).row q = if q = r then y else t.row q := by cases r <;> cases q <;> rfl

theorem InterlockRow.cell_setCell (r : InterlockRow) (c d : TableColumn) (y : Cell) :
    (r.setCell c y).cell d = if d = c then y else r.cell d := by cases c <;> cases d <;> rfl

theorem InterlockRow.holdTime_setCell (r : InterlockRow) (c : TableColumn) (y : Cell) :
    (r.setCell c y).holdTime = r.holdTime := by cases c <;> rfl

theorem byWetness_setOpening (q : Quad Nat) (w v : Wetness) : byWetness (setOpening q w n) v = if v = w then n else byWetness q v := by
  cases w <;> cases v <;> rfl

theorem marks_write : (tb.write n f).marks = tb.marks := by
  cases f with
  | device sel => cases sel <;> rfl
  | _ => rfl

/-- A field in its range reads back the value written. -/
theorem Tables.read_write (hx : inRange n f = true) (hv : ∀ i, f ≠ .point i .valid) : (tb.write n f).read f = n := by
  cases f with
  | point i sel =>
    have hsel : sel ≠ .valid := fun h => hv i (h ▸ rfl)
    show ((tb.points.set i _).get i).read sel = n
    rw [points_get_set, if_pos rfl]
    exact PointEntry.read_write hsel hx
  | device sel =>
    cases sel with
    | silenceTime => rfl
    | ownStation | noticeStation =>
      have hn := (within_nat (a := 1) (b := 253) hx).2
      exact congrArg Int.ofNat (byte_toNat (by omega))
  | noticeEnable c =>
    show boolCode ((tb.notices.set c _).get c).enabled = n
    rw [NoticeTable.get_set, if_pos rfl]
    exact boolCode_decide (within_nat (a := 0) (b := 1) hx).2
  | noticePriority c =>
    show boolCode (decide (((tb.notices.set c _).get c).priority = .high)) = n
    rw [NoticeTable.get_set, if_pos rfl]
    have hn := (within_nat (a := 0) (b := 1) hx).2
    interval_cases n <;> rfl
  | param p sel =>
    show ((tb.params.set p _).get p).read sel = n
    rw [Quad.get_set_self]
    exact PassParams.read_write hx
  | cell p r c =>
    simp only [inRange, Bool.and_eq_true, Int.toNat_natCast] at hx
    obtain ⟨y, hy⟩ := Option.isSome_iff_exists.mp hx.2
    show (((((tb.interlock.set p _).get p).row r).cell c).code : Int) = n
    rw [Quad.get_set_self, InterlockTable.row_setRow, if_pos rfl, InterlockRow.cell_setCell, if_pos rfl, hy]
    exact congrArg Int.ofNat (cell_code_ofCode hy)
  | holdTime p r =>
    show ((((tb.interlock.set p _).get p).row r).holdTime : Int) = n
    rw [Quad.get_set_self, InterlockTable.row_setRow, if_pos rfl]
  | opening p w =>
    show ((byWetness ((tb.openings.set p _).get p) w : Nat) : Int) = n
    rw [Quad.get_set_self, byWetness_setOpening, if_pos rfl]
  | grizzly p t =>
    show (((tb.grizzly.set p _).get p).get t : Int) = n
    rw [Quad.get_set_self, Trio.get_set_self]

/-- Every other field reads as before. -/
theorem Tables.read_write_ne (h : g ≠ f) : (tb.write n f).read g = tb.read g := by
  cases f with
  | point i sel =>
    cases g with
    | point j sel' =>
      show ((tb.points.set i _).get j).read sel' = (tb.points.get j).read sel'
      rw [points_get_set]
      split
      · rename_i hj
        subst hj
        exact PointEntry.read_write_ne fun hs => h (hs ▸ rfl)
      · rfl
    | device sel' => cases sel' <;> rfl
    | _ => rfl
  | device sel =>
    cases g with
    | device sel' => cases sel <;> cases sel' <;> first | rfl | exact absurd rfl h
    | _ => cases sel <;> rfl
  | noticeEnable c =>
    cases g with
    | noticeEnable d =>
      show boolCode ((tb.notices.set c _).get d).enabled = boolCode (tb.notices.get d).enabled
      rw [NoticeTable.get_set, if_neg fun hd : d = c => h (hd ▸ rfl)]
    | noticePriority d =>
      show boolCode (decide (((tb.notices.set c _).get d).priority = .high)) = boolCode (decide ((tb.notices.get d).priority = .high))
      rw [NoticeTable.get_set]
      split
      · rename_i hd
        rw [hd]
      · rfl
    | device sel' => cases sel' <;> rfl
    | _ => rfl
  | noticePriority c =>
    cases g with
    | noticePriority d =>
      show boolCode (decide (((tb.notices.set c _).get d).priority = .high)) = boolCode (decide ((tb.notices.get d).priority = .high))
      rw [NoticeTable.get_set, if_neg fun hd : d = c => h (hd ▸ rfl)]
    | noticeEnable d =>
      show boolCode ((tb.notices.set c _).get d).enabled = boolCode (tb.notices.get d).enabled
      rw [NoticeTable.get_set]
      split
      · rename_i hd
        rw [hd]
      · rfl
    | device sel' => cases sel' <;> rfl
    | _ => rfl
  | param p sel =>
    cases g with
    | param q sel' =>
      show ((tb.params.set p _).get q).read sel' = (tb.params.get q).read sel'
      rw [Quad.get_set]
      split
      · rename_i hq
        subst hq
        exact PassParams.read_write_ne fun hs => h (hs ▸ rfl)
      · rfl
    | device sel' => cases sel' <;> rfl
    | _ => rfl
  | cell p r c =>
    cases g with
    | cell q r' c' =>
      show (((((tb.interlock.set p _).get q).row r').cell c').code : Int) = ((((tb.interlock.get q).row r').cell c').code : Int)
      rw [Quad.get_set]
      split
      · rename_i hq
        subst hq
        rw [InterlockTable.row_setRow]
        split
        · rename_i hr
          subst hr
          rw [InterlockRow.cell_setCell, if_neg fun hc : c' = c => h (hc ▸ rfl)]
        · rfl
      · rfl
    | holdTime q r' =>
      show ((((tb.interlock.set p _).get q).row r').holdTime : Int) = (((tb.interlock.get q).row r').holdTime : Int)
      rw [Quad.get_set]
      split
      · rename_i hq
        subst hq
        rw [InterlockTable.row_setRow]
        split
        · rename_i hr
          subst hr
          rw [InterlockRow.holdTime_setCell]
        · rfl
      · rfl
    | device sel' => cases sel' <;> rfl
    | _ => rfl
  | holdTime p r =>
    cases g with
    | cell q r' c' =>
      show (((((tb.interlock.set p _).get q).row r').cell c').code : Int) = ((((tb.interlock.get q).row r').cell c').code : Int)
      rw [Quad.get_set]
      split
      · rename_i hq
        subst hq
        rw [InterlockTable.row_setRow]
        split
        · rename_i hr
          subst hr
          cases c' <;> rfl
        · rfl
      · rfl
    | holdTime q r' =>
      show ((((tb.interlock.set p _).get q).row r').holdTime : Int) = (((tb.interlock.get q).row r').holdTime : Int)
      rw [Quad.get_set]
      split
      · rename_i hq
        subst hq
        rw [InterlockTable.row_setRow, if_neg fun hr : r' = r => h (hr ▸ rfl)]
      · rfl
    | device sel' => cases sel' <;> rfl
    | _ => rfl
  | opening p w =>
    cases g with
    | opening q w' =>
      show ((byWetness ((tb.openings.set p _).get q) w' : Nat) : Int) = ((byWetness (tb.openings.get q) w' : Nat) : Int)
      rw [Quad.get_set]
      split
      · rename_i hq
        subst hq
        rw [byWetness_setOpening, if_neg fun hw : w' = w => h (hw ▸ rfl)]
      · rfl
    | device sel' => cases sel' <;> rfl
    | _ => rfl
  | grizzly p t =>
    cases g with
    | grizzly q t' =>
      show (((tb.grizzly.set p _).get q).get t' : Int) = ((tb.grizzly.get q).get t' : Int)
      rw [Quad.get_set]
      split
      · rename_i hq
        subst hq
        rw [Trio.get_set, if_neg fun ht : t' = t => h (ht ▸ rfl)]
      · rfl
    | device sel' => cases sel' <;> rfl
    | _ => rfl

theorem boolCode_eq (b : Bool) : boolCode b = if b then 1 else 0 := rfl

/-- R171: an unwritten field is read as -1. -/
theorem orMinusOne_coded {α : Type} {o : Option α} {code : α → Nat} : orMinusOne (o.map fun y => (code y : Int)) =
    match o with
    | none => -1
    | some y => (code y : Int) := by cases o <;> rfl

theorem inRange_nonneg (h : inRange x f = true) : 0 ≤ x := by
  cases f with
  | cell p r c => obtain h | h | h | ⟨-, h, -⟩ := cell_inRange.mp h <;> omega
  | point i sel => cases sel <;> exact le_trans (by decide) (within_iff.mp h).1
  | device sel => cases sel <;> exact le_trans (by decide) (within_iff.mp h).1
  | param p sel => cases sel <;> exact le_trans (by simp [ParamSel.range]) (within_iff.mp h).1
  | _ => exact le_trans (by decide) (within_iff.mp h).1

end fields

/-- Settles O47. -/
theorem writtenFieldsReadBack : Obligations.WrittenFieldsReadBack := by
  refine ⟨fun tb f x hx hv => ?_, fun tb => ⟨fun i => ⟨rfl, orMinusOne_coded, orMinusOne_coded, orMinusOne_coded, orMinusOne_coded,
    orMinusOne_coded, ?_, ?_, ?_, ?_, ?_⟩, rfl, rfl, rfl,
    fun c => ⟨rfl, ?_⟩, rfl, fun p => ⟨rfl, rfl, rfl, rfl, fun w => rfl, ?_, rfl, rfl, rfl, rfl, rfl, rfl, rfl, rfl, rfl, rfl, rfl, rfl,
      rfl, fun r => ?_, fun w => rfl, fun n => rfl⟩⟩⟩
  · obtain ⟨n, rfl⟩ := Int.eq_ofNat_of_zero_le (inRange_nonneg hx)
    exact ⟨Tables.read_write hx hv, fun g hg => Tables.read_write_ne hg, marks_write⟩
  · show orMinusOne ((tb.points.get i).mode.map fun m => (m.code : Int)) = _
    cases (tb.points.get i).mode with
    | none => rfl
    | some m => cases m <;> rfl
  · simp only [Tables.read, PointEntry.read]
    cases (tb.points.get i).scaleNum <;> rfl
  · simp only [Tables.read, PointEntry.read]
    cases (tb.points.get i).scaleDen <;> rfl
  · simp only [Tables.read, PointEntry.read]
    cases (tb.points.get i).response <;> rfl
  · simp only [Tables.read, PointEntry.read]
    cases (tb.points.get i).tolerance <;> rfl
  · exact boolCode_eq _ |>.trans (by simp)
  · show ((tb.params.get p).rounding.code : Int) = _
    cases (tb.params.get p).rounding <;> rfl
  · have hcell : ∀ c : Cell, (c.code : Int) =
        match c with
        | .pass => 0
        | .clamp n => (n : Int)
        | .hold => 200
        | .refuse => 201 := fun c => by cases c <;> rfl
    cases r <;> exact ⟨rfl, hcell _, hcell _, hcell _, hcell _, hcell _, hcell _⟩

/-! ### Writes and device requests -/

section writes

variable {s : State} {p : PassId} {t : Telegram} {f : TableField} {x : Int}

theorem not_inService_iff {m : PassState} : m.inService = false ↔ m = .unconfigured ∨ m = .isolated := by
  cases m <;> simp [PassState.inService]

theorem noneInService_iff_resting :
    noneInService s = true ↔ ∀ p, (s.pass p).mode = .unconfigured ∨ (s.pass p).mode = .isolated := by
  simp only [noneInService_iff, not_inService_iff]

/-- The receipt leaves every write condition as it is. -/
theorem writeAllowed_heard : writeAllowed (heard .control s) f = writeAllowed s f := by cases f <;> rfl

/-- R169, R172: a write is refused for its state, then for its value, and is otherwise carried out. -/
theorem exec_checkedWrite {c : Instr} {r : Request} {carryOut : State → Reply} (hf : fate .control t s = .request r)
    (hr : requestReply r t (heard .control s) = checkedWrite f x (heard .control s) carryOut)
    (hc : arrival c = some (.control, t)) (hreset : r.isReset = false) :
    (writeAllowed s f = false → exec c s = .next (respond t false (refuse (heard .control s) .refusedState)))
      ∧ (writeAllowed s f = true → inRange x f = false →
          exec c s = .next (respond t false (refuse (heard .control s) .refusedRange)))
      ∧ (writeAllowed s f = true → inRange x f = true →
          exec c s = .next (respond t false (carryOut (heard .control s)))) := by
  rw [exec_request hc hf hr, hreset]
  refine ⟨fun ha => ?_, fun ha hx => ?_, fun ha hx => ?_⟩
  · rw [checkedWrite_state (writeAllowed_heard.trans ha)]
  · rw [checkedWrite_range (writeAllowed_heard.trans ha) hx]
  · rw [checkedWrite_carried (writeAllowed_heard.trans ha) hx]

theorem within_out {a b : Int} (h : x < a ∨ b < x) : within x (a, b) = false := by
  rw [← Bool.not_eq_true, within_iff]
  omega

end writes

/-- Settles O39. -/
theorem writesStoreTheirField : Obligations.WritesStoreTheirField := by
  refine ⟨fun t s => ⟨fun hf => exec_request rfl hf rfl, fun f hf => ?_, fun hf => ?_⟩,
    fun s => ⟨noneInService_iff_resting, fun f hf => ?_, fun p f hf => ?_⟩, ?_⟩
  · exact exec_checkedWrite hf (carryOut := fun s => done (s.store f t.value.toInt)) rfl rfl rfl
  · obtain ⟨hstate, hrange, hcarry⟩ := exec_checkedWrite hf (c := .writeLineSilenceTime t) (f := .device .silenceTime)
      (carryOut := fun s =>
        done { s.store (.device .silenceTime) t.value.toInt with silence := startedSilence t.value.toInt.toNat }) rfl rfl rfl
    exact ⟨hstate, fun ha hx => hrange ha (within_out hx), fun ha h0 h1 => hcarry ha (within_iff.mpr ⟨h0, h1⟩)⟩
  · obtain ⟨i, sel, rfl⟩ | ⟨sel, rfl⟩ | ⟨c, rfl⟩ | ⟨c, rfl⟩ := hf <;> exact noneInService_iff_resting
  · have hrest : (!(s.pass p).mode.inService) = true ↔ (s.pass p).mode = .unconfigured ∨ (s.pass p).mode = .isolated := by
      rw [Bool.not_eq_true', not_inService_iff]
    obtain ⟨sel, rfl⟩ | ⟨r, c, rfl⟩ | ⟨r, rfl⟩ | ⟨w, rfl⟩ | ⟨n, rfl⟩ := hf <;> exact hrest
  · refine ⟨fun i => ⟨?_, ?_, ?_, ?_, ?_, ?_, ?_, ?_, ?_, ?_, ?_⟩, ?_, ?_, ?_, fun c => ⟨?_, ?_⟩, fun p => ⟨?_, ?_, ?_, ?_, fun w => ?_,
      ?_, ?_, ?_, ?_, ?_, ?_, ?_, ?_, ?_, ?_, ?_, ?_, ?_, ?_, fun r => ?_, fun w => ?_, fun n => ?_,
      fun x r c => cell_inRange⟩⟩ <;> exact fun x => within_iff

/-- Settles O45. -/
theorem deviceRequests : Obligations.DeviceRequests := by
  refine fun t s => ⟨fun hf => ⟨fun h4 => ?_, fun h4 => ?_, fun p hp => ?_⟩, fun hf => exec_request rfl hf rfl, fun hf hk hp => ?_,
    fun hf => exec_request rfl hf rfl⟩
  · exact exec_request rfl hf (if_pos h4)
  · have hne : t.table ≠ 4 := fun h => by rw [h] at h4; exact absurd h4 (by decide)
    exact exec_request rfl hf ((if_neg hne).trans (forPass_none (requestPass_none h4)))
  · have hne : t.table ≠ 4 := fun h => by
      rw [requestPass, h, indexBelow_eq_some] at hp
      have := p.isLt
      simp at hp
      omega
    exact ⟨fun hm => exec_request rfl hf ((if_neg hne).trans ((forPass_some hp).trans (if_pos hm))),
      fun hm => exec_request rfl hf ((if_neg hne).trans ((forPass_some hp).trans (if_neg hm)))⟩
  · rw [exec_of_fate (c := .timeSet t) rfl hf]
    have hset : isTimeSet t = true := by simp [isTimeSet, hk, hp, kindMRQ]
    unfold deal State.takeBroadcast
    rw [if_pos ⟨rfl, hset⟩]
    rfl

end Sys2Proof.Machine

/-! Writes of the Point Table (R18 to R24). -/

namespace Sys2Proof.Machine

section points

variable {tb : Tables} {s : State} {i : Fin 128} {e f : PointEntry} {r : Role} {n : Nat} {t : Telegram} {sel : PointSel}

theorem isPassLevel_iff : r.isPassLevel = true ↔ r = .level ∨ r = .noticePost ∨ r = .noticeTaken := by
  cases r <;> simp [Role.isPassLevel]

theorem isChute_iff : r.isChute = true ↔
    r = .gateSet ∨ r = .gatePosition ∨ r = .wagon ∨ r = .draw ∨ r = .chuteMoisture := by
  cases r <;> simp [Role.isChute]

theorem objectFits_some_iff (hr : e.role = some r) : objectFits e = true ↔
    r.isPassLevel = true ∨ ∃ o, e.object = some o ∧ (r.isChute = true → o.val ≤ 1) := by
  unfold objectFits
  rw [hr]
  by_cases hp : r.isPassLevel = true
  · simp [hp]
  · cases ho : e.object with
    | none => simp [hp]
    | some o =>
      have ho2 : o.val ≤ 1 ↔ ¬o = 2 := by omega
      cases hc : r.isChute <;> simp [hp, hc, ho2]

/-- R21, R22: when an Object fits its role. -/
theorem objectFits_iff : objectFits e = true ↔
    ∃ r, e.role = some r ∧ (r.isPassLevel = true ∨ ∃ o, e.object = some o ∧ (r.isChute = true → o.val ≤ 1)) := by
  cases hr : e.role with
  | none => simp [objectFits, hr]
  | some r =>
    rw [objectFits_some_iff hr]
    simp

theorem isComplete_iff : isComplete e = true ↔
    (∃ x, e.station = some x) ∧ (∃ x, e.point = some x) ∧ (∃ x, e.pass = some x) ∧ objectFits e = true := by
  simp only [isComplete, Bool.and_eq_true, Option.isSome_iff_exists]
  constructor
  · rintro ⟨⟨⟨⟨hs, hp⟩, -⟩, hq⟩, hfit⟩
    exact ⟨hs, hp, hq, hfit⟩
  · rintro ⟨hs, hp, hq, hfit⟩
    obtain ⟨r, hr, -⟩ := objectFits_iff.mp hfit
    exact ⟨⟨⟨⟨hs, hp⟩, r, hr⟩, hq⟩, hfit⟩

theorem pointsClash_iff : pointsClash e f = true ↔ e.station = f.station ∧ e.point = f.point
    ∨ e.role = f.role ∧ e.pass = f.pass ∧ ((∃ r, e.role = some r ∧ r.isPassLevel = true) ∨ e.object = f.object) := by
  have hlevel : (e.role.map Role.isPassLevel).getD false = true ↔ ∃ r, e.role = some r ∧ r.isPassLevel = true := by
    cases e.role <;> simp
  simp only [pointsClash, Bool.or_eq_true, Bool.and_eq_true, decide_eq_true_eq, hlevel, and_assoc]

theorem isDuplicate_iff : isDuplicate tb i e = true ↔
    ∃ j : Fin 128, j ≠ i ∧ (tb.points.get j).valid = true ∧ pointsClash e (tb.points.get j) = true := by
  simp only [isDuplicate, List.any_eq_true, Bool.and_eq_true, decide_eq_true_eq, and_assoc]
  exact ⟨fun ⟨j, _, h⟩ => ⟨j, h⟩, fun ⟨j, h⟩ => ⟨j, List.mem_finRange j, h⟩⟩

theorem pointBusy_iff : pointBusy s e = true ↔ ∃ p, e.pass = some p ∧ passBusy s.traffic p = true := by
  unfold pointBusy
  cases e.pass <;> simp

theorem role_ofCode_eq : Role.ofCode n =
    [Role.gateSet, .signalSet, .breakerSet, .gatePosition, .wagon, .draw, .chuteMoisture, .level, .tip, .signalState,
      .breakerState, .grizzlyClear, .noticePost, .noticeTaken].find? fun r => decide (r.code = n) := by
  match n with
  | 0 | 1 | 2 | 3 | 4 | 5 | 6 | 7 | 8 | 9 | 10 | 11 | 12 | 13 | 14 => rfl
  | n + 15 =>
    symm
    rw [show Role.ofCode (n + 15) = none from rfl, List.find?_eq_none]
    intro r _
    have : r.code ≤ 14 := by cases r <;> decide
    simp only [decide_eq_true_eq]
    omega

theorem indexBelow_four : indexBelow 4 n = ([0, 1, 2, 3] : List PassId)[n]? := by
  match n with
  | 0 | 1 | 2 | 3 => rfl
  | n + 4 => simp [indexBelow]

theorem indexBelow_three : indexBelow 3 n = ([0, 1, 2] : List (Fin 3))[n]? := by
  match n with
  | 0 | 1 | 2 => rfl
  | n + 3 => simp [indexBelow]

theorem mode_ofCode_eq : HandlingMode.ofCode n = [HandlingMode.forward, .annotate, .absorb][n]? := by
  match n with
  | 0 | 1 | 2 => rfl
  | n + 3 => simp [HandlingMode.ofCode]

/-- R21, R22, R24: a write of Valid once its value has passed. -/
def validWritten (i : Fin 128) (x : Int) (s : State) : Reply :=
  let e := s.tables.points.get i
  if x = 1 then
    if e.valid then done s
    else if !isComplete e then refuse s .refusedRange
    else if pointBusy s e then refuse s .busy
    else if isDuplicate s.tables i e then refuse s .duplicate
    else done (s.setPoint i (madeValid e))
  else if e.valid then
    if pointBusy s e then refuse s .busy else done (s.setPoint i blankPoint)
  else done (s.setPoint i blankPoint)

theorem requestReply_writeValid :
    requestReply (.writeValid i) t s = checkedWrite (.point i .valid) t.value.toInt s (validWritten i t.value.toInt) := rfl

/-- R22 to R24: a write of another field once its value has passed. -/
def selWritten (i : Fin 128) (sel : PointSel) (x : Int) (s : State) : Reply :=
  let e := s.tables.points.get i
  let e' := e.write x.toNat sel
  if !e.valid then done (s.setPoint i e')
  else if e' = e then done s
  else if !objectFits e' then refuse s .refusedRange
  else if pointBusy s e || pointBusy s e' then refuse s .busy
  else if sel.isRouting && isDuplicate s.tables i e' then refuse s .duplicate
  else done (s.setPoint i e')

theorem requestReply_writePointField : requestReply (.writePointField i sel) t s =
    checkedWrite (.point i sel) t.value.toInt s (selWritten i sel t.value.toInt) := rfl

section written

variable {x : Int} (h : e = s.tables.points.get i)
include h

theorem validWritten_held (hx : x = 1) (hv : e.valid = true) : validWritten i x s = done s := by
  simp [validWritten, hx, ← h, hv]

theorem validWritten_incomplete (hx : x = 1) (hv : e.valid = false) (hc : isComplete e = false) :
    validWritten i x s = refuse s .refusedRange := by
  simp [validWritten, hx, ← h, hv, hc]

theorem validWritten_busy (hx : x = 1) (hv : e.valid = false) (hc : isComplete e = true) (hb : pointBusy s e = true) :
    validWritten i x s = refuse s .busy := by
  simp [validWritten, hx, ← h, hv, hc, hb]

theorem validWritten_new (hx : x = 1) (hv : e.valid = false) (hc : isComplete e = true) (hb : pointBusy s e = false) :
    validWritten i x s = if isDuplicate s.tables i e then refuse s .duplicate else done (s.setPoint i (madeValid e)) := by
  simp [validWritten, hx, ← h, hv, hc, hb]

theorem validWritten_kept (hx : x = 0) (hv : e.valid = true) (hb : pointBusy s e = true) :
    validWritten i x s = refuse s .busy := by
  simp [validWritten, hx, ← h, hv, hb]

theorem validWritten_blank (hx : x = 0) (hfree : e.valid = false ∨ pointBusy s e = false) :
    validWritten i x s = done (s.setPoint i blankPoint) := by
  obtain hv | hb := hfree
  · simp [validWritten, hx, ← h, hv]
  · simp [validWritten, hx, ← h, hb]

variable {e' : PointEntry} (h' : e' = e.write x.toNat sel)
include h'

theorem selWritten_invalid (hv : e.valid = false) : selWritten i sel x s = done (s.setPoint i e') := by
  simp [selWritten, ← h, ← h', hv]

theorem selWritten_same (hv : e.valid = true) (hs : e' = e) : selWritten i sel x s = done s := by
  simp [selWritten, ← h, ← h', hv, hs]

theorem selWritten_unfit (hv : e.valid = true) (hs : e' ≠ e) (hfit : objectFits e' = false) :
    selWritten i sel x s = refuse s .refusedRange := by
  simp [selWritten, ← h, ← h', hv, hs, hfit]

theorem selWritten_busy (hv : e.valid = true) (hs : e' ≠ e) (hfit : objectFits e' = true)
    (hb : pointBusy s e = true ∨ pointBusy s e' = true) : selWritten i sel x s = refuse s .busy := by
  simp [selWritten, ← h, ← h', hv, hs, hfit, hb]

theorem selWritten_free (hv : e.valid = true) (hs : e' ≠ e) (hfit : objectFits e' = true) (hb : pointBusy s e = false)
    (hb' : pointBusy s e' = false) : selWritten i sel x s =
      if sel.isRouting && isDuplicate s.tables i e' then refuse s .duplicate else done (s.setPoint i e') := by
  simp [selWritten, ← h, ← h', hv, hs, hfit, hb, hb']

end written

end points

/-- Settles O40. -/
theorem pointTableWrites : Obligations.PointTableWrites := by
  refine ⟨fun tb s i e => ⟨?_, isComplete_iff, rfl, rfl, fun f => ?_, isDuplicate_iff, pointBusy_iff, fun sel => ?_, fun n =>
    ⟨rfl, rfl, ?_, ?_, ?_, ?_, rfl, rfl, rfl, rfl⟩⟩, ⟨rfl, fun r => by cases r <;> simp [Role.isCommand]⟩,
    fun t s i => ⟨fun hf => ?_, fun sel hf => ?_⟩⟩
  · simp only [objectFits_iff, isPassLevel_iff, isChute_iff]
  · simp only [pointsClash_iff, isPassLevel_iff]
  · cases sel <;> simp [PointSel.isRouting]
  · exact congrArg (fun x => { e with role := x }) role_ofCode_eq
  · exact congrArg (fun x => { e with pass := x }) indexBelow_four
  · exact congrArg (fun x => { e with object := x }) indexBelow_three
  · exact congrArg (fun x => { e with mode := x }) mode_ofCode_eq
  · obtain ⟨hstate, hrange, hcarry⟩ := exec_checkedWrite hf requestReply_writeValid (c := .writeValid t) rfl rfl
    have one (ha : noneInService s = true) (h1 : t.value.toInt = 1) {rep : Reply}
        (h : validWritten i t.value.toInt (heard .control s) = rep) : exec (.writeValid t) s = .next (respond t false rep) :=
      h ▸ hcarry ha (within_iff.mpr (h1 ▸ ⟨by decide, by decide⟩))
    have zero (ha : noneInService s = true) (h0 : t.value.toInt = 0) {rep : Reply}
        (h : validWritten i t.value.toInt (heard .control s) = rep) : exec (.writeValid t) s = .next (respond t false rep) :=
      h ▸ hcarry ha (within_iff.mpr (h0 ▸ ⟨by decide, by decide⟩))
    exact ⟨hstate, fun ha => ⟨fun h0 h1 => hrange ha (within_out (by omega)),
      fun h1 hv => one ha h1 (validWritten_held rfl h1 hv), fun h1 hv =>
        ⟨fun hc => one ha h1 (validWritten_incomplete rfl h1 hv hc), fun hc hb => one ha h1 (validWritten_busy rfl h1 hv hc hb),
          fun hc hb => ⟨fun hd => one ha h1 ((validWritten_new (s := heard .control s) rfl h1 hv hc hb).trans (if_pos hd)),
            fun hd => one ha h1 ((validWritten_new (s := heard .control s) rfl h1 hv hc hb).trans (if_neg (ne_true_of_eq_false hd)))⟩⟩,
      fun h0 => ⟨fun hv hb => zero ha h0 (validWritten_kept rfl h0 hv hb), fun hfree => zero ha h0 (validWritten_blank rfl h0 hfree)⟩⟩⟩
  · obtain ⟨hstate, hrange, hcarry⟩ := exec_checkedWrite hf requestReply_writePointField (c := .writePointField t) rfl rfl
    have stored (ha : noneInService s = true) (hx : inRange t.value.toInt (.point i sel) = true) {rep : Reply}
        (h : selWritten i sel t.value.toInt (heard .control s) = rep) :
        exec (.writePointField t) s = .next (respond t false rep) := h ▸ hcarry ha hx
    exact ⟨hstate, hrange, fun ha hx => ⟨fun hv => stored ha hx (selWritten_invalid rfl rfl hv),
      fun hv hs => stored ha hx (selWritten_same rfl rfl hv hs), fun hv hs =>
        ⟨fun hfit => stored ha hx (selWritten_unfit rfl rfl hv hs hfit),
          fun hfit hb => stored ha hx (selWritten_busy rfl rfl hv hs hfit hb), fun hfit hb hb' =>
          ⟨fun hd => stored ha hx ((selWritten_free (s := heard .control s) rfl rfl hv hs hfit hb hb').trans (if_pos (by
              rw [Bool.and_eq_true]
              exact hd))),
            fun hd => stored ha hx ((selWritten_free (s := heard .control s) rfl rfl hv hs hfit hb hb').trans (if_neg (by
              rw [Bool.and_eq_true, not_and_or, Bool.not_eq_true, Bool.not_eq_true]
              exact hd)))⟩⟩⟩⟩

end Sys2Proof.Machine

/-! What follows a change of a pass: the forced safe command, the grizzly crossings and the completed column change as the
statements write them; and the requests that change a pass state or its column (R47, R157 to R160, R173). -/

namespace Sys2Proof.Machine

section after

variable {s u : State} {p : PassId} {a : Actuator} {r : Reason} {before : Column} {n : TipId} {x : Pass} {o v : Bool}
variable {tel : Option Interrupted}

/-- R88, R89, R101: a forced safe command. -/
theorem force_eq_afterForcing : s.force a r = afterForcing a r s := by
  unfold State.force afterForcing
  split
  · rename_i h
    have horig : s.originate a = { s with traffic := s.traffic.takeSafe s.view a none noCarried } :=
      congrArg (fun tr => { s with traffic := tr }) (if_pos h)
    rw [horig]
  · rfl

/-- R45, R87, R88: what an accumulator hands to its tip-point record. -/
theorem handAccumulator_eq : State.handAccumulator p before s n = afterStanding p before s n := by
  unfold State.handAccumulator afterStanding State.setStanding
  simp only [force_eq_afterForcing]
  by_cases hsame : ((s.pass p).column.accums.get n).tonnage = (before.accums.get n).tonnage
  · rw [if_pos hsame, if_pos (.inl hsame)]
  · rw [if_neg hsame]
    by_cases hstand : standingOf ((s.tables.grizzly.get p).get n) ((s.pass p).column.accums.get n).tonnage
        = ((s.pass p).tips.get n).standing
    · rw [if_pos hstand, if_pos (.inr hstand)]
    · rw [if_neg hstand, if_neg (not_or.mpr ⟨hsame, hstand⟩)]
      have hshown : permitShown (s.setTip p n { (s.pass p).tips.get n with
          standing := standingOf ((s.tables.grizzly.get p).get n) ((s.pass p).column.accums.get n).tonnage }) p n = true ↔
          ((s.pass p).tips.get n).signal = .isOn ∨ hasNonSafe s.traffic (.signal p n) = true := by
        simp [permitShown, Trio.get_set_self]
      simp only [hshown]
      rfl

/-- R44, R45: the completion of a column change. -/
theorem completeColumn_eq (hm : x.mode ≠ .unconfigured) :
    (s.setPass p x).completeColumn p before o v tel = afterColumnChange p x before o v tel s := by
  unfold State.completeColumn afterColumnChange
  simp only [State.setPass_pass_self, evaluate_eq_afterEvaluating hm]
  congr 1
  funext u n
  exact handAccumulator_eq

theorem completeColumn_self_eq (hm : (s.pass p).mode ≠ .unconfigured) :
    s.completeColumn p before o v tel = afterColumnChange p (s.pass p) before o v tel s := by
  have h := completeColumn_eq (s := s) (p := p) (before := before) (o := o) (v := v) (tel := tel) hm
  rwa [State.setPass_pass_same] at h

theorem changeColumn_eq {col : Column} (hm : (s.pass p).mode ≠ .unconfigured) :
    s.changeColumn p col o v tel = afterColumnChange p { s.pass p with column := col } (s.pass p).column o v tel s :=
  completeColumn_eq hm

/-- A state that differs from `s` in nothing that other passes have, carried on within `p`. -/
theorem elsewhere_of_within {w : State} (h : Within p u w)
    (hs : ∀ q, q ≠ p → u.pass q = s.pass q ∧ Spares q s.traffic u.traffic) : elsewhere p s w := by
  intro q hq
  obtain ⟨hpass, hspares⟩ := h.2 q hq
  obtain ⟨hpass', hspares'⟩ := hs q hq
  exact ⟨hpass.trans hpass', hspares'.append hspares⟩

end after

/-! ### Passes returned to service (R57, R157, R160) -/

section returning

variable {s : State} {p : PassId} {x : Pass} {tb : Tables} {t : Telegram} {now : Word} {tel : Option Interrupted}

/-- R73, R152: alert causes after the first join the secondary set. -/
theorem foldl_withAlert_join (l : List Cause) : ∀ y : Pass, y.mode = .alert →
    l.foldl (fun z c => z.withAlert c now tel) y = { y with alarm := l.foldl AlarmRecord.join y.alarm } := by
  induction l with
  | nil => exact fun _ _ => rfl
  | cons c cs ih =>
    intro y hy
    have hstep : y.withAlert c now tel = { y with alarm := y.alarm.join c } := by
      unfold Pass.withAlert
      rw [hy]
    rw [List.foldl_cons, hstep, ih { y with alarm := y.alarm.join c } hy]
    rfl

/-- R72, R73, R152: an evaluation of a RUNNING pass raises the record by its first enabled condition. -/
theorem afterEvaluation_alarm_raised {pr : PassParams} {o u : Bool} {first : Cause} {rest : List Cause}
    (hm : x.mode = .running) (hc : enabledCauses pr (findings pr x o u).causes = first :: rest) :
    (x.afterEvaluation pr o u now tel).alarm = rest.foldl AlarmRecord.join
      { level := .alert, primary := some first, secondary := [], raisedAt := now, h := x.est.h, hc := x.est.hc
        hs := x.est.hs, telegram := tel } := by
  have hest : x.evaluated pr o u = x.est.record (findings pr x o u).causes :=
    Pass.evaluated_alarmed (by rw [hc]; exact List.cons_ne_nil _ _)
  have hfirst : Pass.withAlert first now tel { x with est := x.evaluated pr o u } =
      { x with
        est := x.evaluated pr o u
        mode := .alert
        alarm :=
          { level := .alert, primary := some first, secondary := [], raisedAt := now, h := x.est.h, hc := x.est.hc
            hs := x.est.hs, telegram := tel } } := by
    unfold Pass.withAlert
    simp only [hm, hest]
    rfl
  unfold Pass.afterEvaluation
  rw [hc, List.foldl_cons, hfirst, foldl_withAlert_join _ _ rfl]

theorem afterEvaluation_alarm_quiet {pr : PassParams} {o u : Bool} (hc : enabledCauses pr (findings pr x o u).causes = []) :
    (x.afterEvaluation pr o u now tel).alarm = x.alarm := by
  unfold Pass.afterEvaluation
  rw [hc]
  rfl

/-- A pass that returns to service: what its change and its one evaluation leave. -/
theorem returned_of {moved reported : State} (hm : x.mode = .running)
    (hmoved : moved = { heard .control s with tables := tb, passes := s.passes.set p x })
    (hpr : tb.params.get p = s.params p) (hw : Within p moved reported) (hp : reported.pass p = moved.pass p) :
    let v := reported.evaluate p false false none
    let causes := enabledCauses (s.params p) (findings (s.params p) x false false).causes
    elsewhere p s v ∧ v = { heard .control s with tables := tb, passes := v.passes, traffic := v.traffic }
      ∧ v.pass p = { x with
          est := x.evaluated (s.params p) false false
          mode := x.stateEvaluated (s.params p) false false
          alarm := (v.pass p).alarm }
      ∧ (causes = [] → (v.pass p).alarm = x.alarm)
      ∧ (∀ first rest, causes = first :: rest → (v.pass p).alarm = rest.foldl AlarmRecord.join
          { level := .alert, primary := some first, secondary := [], raisedAt := s.time, h := x.est.h, hc := x.est.hc
            hs := x.est.hs, telegram := none })
      ∧ v = afterEvaluating p x false false none reported := by
  intro v causes
  have hx : reported.pass p = x := by
    rw [hp, hmoved]
    exact Quad.get_set_self _ _ _
  have hparams : reported.params p = s.params p := by
    rw [State.params, hw.tables_eq, hmoved]
    exact hpr
  have htime : reported.time = s.time := by rw [hw.time_eq, hmoved]; rfl
  have hlive : (reported.pass p).mode ≠ .unconfigured := by rw [hx, hm]; decide
  have hwv : Within p moved v := hw.append (evaluate_within _ _ _)
  have hrec := evaluate_pass (s := reported) (p := p) (tel := none) false false hlive
  have halarm := congrArg Pass.alarm (evaluate_record (s := reported) (p := p) (tel := none) false false hlive)
  rw [hx, hparams, htime] at halarm
  rw [hx, hparams] at hrec
  refine ⟨elsewhere_of_within hwv fun q hq => ?_, ?_, hrec, fun hc => ?_, fun first rest hc => ?_, ?_⟩
  · rw [hmoved]
    exact ⟨Quad.get_set_ne hq _ _, .refl'⟩
  · rw [hmoved] at hwv
    exact hwv.1
  · exact halarm.trans (afterEvaluation_alarm_quiet hc)
  · exact halarm.trans (afterEvaluation_alarm_raised hm hc)
  · have h := evaluate_self_eq (o := false) (u := false) (tel := none) hlive
    rwa [hx] at h

theorem isConsistent_iff {pr : PassParams} : isConsistent pr = true ↔ pr.cushion + pr.highFill + 2 ≤ pr.len := by
  simp [isConsistent]

end returning

/-- Settles O43. -/
theorem passesReturnToService : Obligations.PassesReturnToService := by
  refine fun t s => ⟨fun hf => ⟨fun hp => exec_request rfl hf (forPass_none hp), fun p hp => ⟨fun hm => ?_, fun hm hl => ?_, fun hm hl => ?_⟩⟩,
    fun hf => ⟨fun hp => exec_request rfl hf (forPass_none hp), fun p hp => ⟨fun hm => ?_, fun hm => ?_⟩⟩⟩
  · exact exec_request rfl hf ((forPass_some hp).trans (if_pos hm))
  · refine exec_request rfl hf ((forPass_some hp).trans ((if_neg (not_not.mpr hm)).trans (if_pos ?_)))
    rw [Bool.not_eq_true', ← Bool.not_eq_true, isConsistent_iff]
    exact not_le.mpr hl
  · refine ⟨_, exec_request rfl hf ((forPass_some hp).trans ((if_neg (not_not.mpr hm)).trans (if_neg ?_))), ?_⟩
    · rw [Bool.not_eq_true', ← Bool.not_eq_true, not_not, isConsistent_iff]
      exact hl
    · exact returned_of rfl rfl rfl reportChange_within (State.reportChange_pass _)
  · exact exec_request rfl hf ((forPass_some hp).trans (if_pos hm))
  · refine ⟨_, exec_request rfl hf ((forPass_some hp).trans (if_neg (not_not.mpr hm))), ?_⟩
    exact returned_of rfl rfl rfl reportStandingChange_within (State.reportStandingChange_pass _)

end Sys2Proof.Machine

/-! The requests for a pass's column and for its isolation (R47, R158 to R160, R173). -/

namespace Sys2Proof.Machine

/-! ### Pass reset and survey (R47, R159) -/

section columns

variable {s : State} {p : PassId} {t : Telegram}

/-- R159: the record of a pass that is reset, before its slot is emptied. -/
def Pass.reset (x : Pass) : Pass :=
  { x with
    est := { x.est with causes := noCauses, sticky := noFlags }
    column := clearedColumn
    alarm := { x.alarm with level := .quiet }
    mode := if x.mode = .isolated then .isolated else .running }

/-- R159: a reset pass whose state changed has the change reported. -/
def State.resetTold (p : PassId) (s : State) : State :=
  if (s.pass p).mode = .alert ∨ (s.pass p).mode = .tripped then (s.setPass p (s.pass p).reset).reportChange p
  else s.setPass p (s.pass p).reset

theorem resetTold_within : Within p s (s.resetTold p) := by
  unfold State.resetTold
  split
  · exact (setPass_within _).append reportChange_within
  · exact setPass_within _

theorem resetTold_pass : (s.resetTold p).pass p = (s.pass p).reset := by
  unfold State.resetTold
  split <;> simp

theorem resetPass_eq (hm : (s.pass p).mode ≠ .unconfigured) :
    s.resetPass p = ((s.resetTold p).emptySlot p 4).completeColumn p (s.pass p).column false false none := by
  unfold State.resetPass State.resetTold Pass.reset
  simp only [State.setPass_pass_self, State.setPass_setPass, resetRecords, AlarmRecord.quieted]
  cases h : (s.pass p).mode with
  | unconfigured => exact absurd h hm
  | running | alert | tripped | isolated => rfl

/-- R159: a pass reset, its steps in order. -/
theorem resetPass_after (hm : (s.pass p).mode ≠ .unconfigured) :
    columnChanged s.tables p (s.pass p).column false false s.time none { (s.pass p).reset with slot := none }
        ((s.resetPass p).pass p)
      ∧ s.resetPass p = afterColumnChange p { (s.pass p).reset with slot := none } (s.pass p).column false false none
          ((s.resetTold p).emptySlot p 4) := by
  have hx : ((s.resetTold p).emptySlot p 4).pass p = { (s.pass p).reset with slot := none } := by
    rw [emptySlot_pass, resetTold_pass]
  have hw : Within p s ((s.resetTold p).emptySlot p 4) := resetTold_within.append (emptySlot_within 4)
  have hlive : (((s.resetTold p).emptySlot p 4).pass p).mode ≠ .unconfigured := by
    rw [hx]
    unfold Pass.reset
    simp only
    split <;> decide
  have hcol := completeColumn_pass (tel := none) (s.pass p).column false false hlive
  rw [hx, hw.tables_eq, hw.time_eq] at hcol
  rw [resetPass_eq hm]
  refine ⟨hcol, ?_⟩
  rw [completeColumn_self_eq hlive, hx]

/-- R107, R159: what emptying the slot of a reset pass brings. -/
theorem resetTold_emptySlot : (s.resetTold p).emptySlot p 4 =
    match (s.pass p).slot with
    | none => s.resetTold p
    | some n =>
      State.reportChange p
        (State.raise (.pass p) .slot (40 + n.kind.code)
          { s.resetTold p with passes := (s.resetTold p).passes.set p { (s.pass p).reset with slot := none } }) := by
  have hslot : ((s.resetTold p).pass p).slot = (s.pass p).slot := by rw [resetTold_pass]; rfl
  cases h : (s.pass p).slot with
  | none => exact emptySlot_empty (hslot.trans h)
  | some n =>
    rw [emptySlot_full (hslot.trans h), resetTold_pass]
    rfl

theorem passResetRequest_isolated (hp : requestPass t = some p) (hm : (s.pass p).mode = .isolated) :
    passResetRequest t s = done (s.resetPass p) := by
  rw [passResetRequest, forPass_some hp, hm]

theorem passResetRequest_service (hp : requestPass t = some p) (hm : (s.pass p).mode.inService = true) :
    passResetRequest t s = if atRest s.view s.traffic p then done (s.resetPass p) else refuse s .busy := by
  rw [passResetRequest, forPass_some hp]
  cases h : (s.pass p).mode with
  | running | alert | tripped => rfl
  | isolated | unconfigured => rw [h] at hm; cases hm

theorem passResetRequest_unconfigured (hp : requestPass t = some p) (hm : (s.pass p).mode = .unconfigured) :
    passResetRequest t s = refuse s .refusedState := by
  rw [passResetRequest, forPass_some hp, hm]

theorem wetness_ofCode_none {k : Nat} (h : 3 < k) : Wetness.ofCode k = none := by
  obtain ⟨m, rfl⟩ : ∃ m, k = m + 4 := ⟨k - 4, by omega⟩
  rfl

/-- R47: a tonnage or a class out of range. -/
theorem surveyRequest_refused (hp : requestPass t = some p) (hm : (s.pass p).mode ≠ .unconfigured)
    (h : t.value.toInt < 1 ∨ 60000 < t.value.toInt ∨ 3 < t.qual.toNat) : surveyRequest t s = refuse s .refusedRange := by
  rw [surveyRequest, forPass_some hp, if_neg hm]
  by_cases hin : within t.value.toInt (1, 60000) = true
  · have hq : 3 < t.qual.toNat := by
      have := within_iff.mp hin
      simp only at this
      omega
    rw [hin, wetness_ofCode_none hq]
    rfl
  · rw [if_pos (by simpa using hin)]

theorem surveyRequest_taken {w : Wetness} (hp : requestPass t = some p) (hm : (s.pass p).mode ≠ .unconfigured)
    (h0 : 1 ≤ t.value.toInt) (h1 : t.value.toInt ≤ 60000) (hw : Wetness.ofCode t.qual.toNat = some w) :
    surveyRequest t s = done (s.changeColumn p ((s.pass p).column.survey s.time t.value.toInt.toNat w) false false none) := by
  rw [surveyRequest, forPass_some hp, if_neg hm, within_iff.mpr ⟨h0, h1⟩, hw]
  rfl

end columns

/-- Settles O44. -/
theorem columnRequests : Obligations.ColumnRequests := by
  refine fun t s => ⟨fun hf => ⟨fun hp => exec_request rfl hf (forPass_none hp), fun p hp => ⟨fun hm => ?_, fun hm hr => ?_, fun hm => ?_⟩⟩,
    fun hf => ⟨fun hp => exec_request rfl hf (forPass_none hp), fun p hp => ⟨fun hm => ?_, fun hm hx => ?_, fun w hm h0 h1 hw => ?_⟩⟩⟩
  · exact exec_request rfl hf (passResetRequest_unconfigured hp hm)
  · exact exec_request rfl hf ((passResetRequest_service (s := heard .control s) hp hm).trans (if_neg (ne_true_of_eq_false hr)))
  · have hlive : ((heard .control s).pass p).mode ≠ .unconfigured := by
      obtain h | ⟨h, -⟩ := hm <;> intro hu
      · exact absurd (h.symm.trans hu) (by decide)
      · rw [show (s.pass p).mode = .unconfigured from hu] at h
        cases h
    have hreply : passResetRequest t (heard .control s) = done ((heard .control s).resetPass p) := by
      obtain h | ⟨h, hr⟩ := hm
      · exact passResetRequest_isolated hp h
      · exact (passResetRequest_service (s := heard .control s) hp h).trans (if_pos hr)
    obtain ⟨hcol, hafter⟩ := resetPass_after hlive
    have hw : Within p (heard .control s) ((heard .control s).resetPass p) := resetPass_within
    refine ⟨_, exec_request rfl hf hreply, hw.elsewhere, hw.1, hcol, ?_⟩
    rw [hafter, resetTold_emptySlot] <;> rfl
  · exact exec_request rfl hf ((forPass_some hp).trans (if_pos hm))
  · exact exec_request rfl hf (surveyRequest_refused (s := heard .control s) hp hm hx)
  · have hm' : ((heard .control s).pass p).mode ≠ .unconfigured := hm
    have hwithin : Within p (heard .control s) _ :=
      changeColumn_within (((heard .control s).pass p).column.survey s.time t.value.toInt.toNat w) false false none
    exact ⟨_, exec_request rfl hf (surveyRequest_taken hp hm' h0 h1 hw), hwithin.elsewhere, hwithin.1,
      changeColumn_pass _ false false hm', changeColumn_eq hm'⟩

/-! ### The isolation sequence (R158, R160, R173) -/

section isolation

variable {s : State} {p : PassId} {t : Telegram} {v : View} {tr : Traffic} {a : Actuator}

/-- R160: the record of an isolated pass. -/
def Pass.isolatedRecord (x : Pass) : Pass := { x with mode := .isolated, alarm := { x.alarm with level := .quiet } }

/-- R160: an isolated pass once its held commands are gone and its mark is set. -/
def State.isolatedBefore (p : PassId) (s : State) : State :=
  { s with
    passes := s.passes.set p (s.pass p).isolatedRecord
    traffic := withoutHeld s.tables p s.traffic
    tables := { s.tables with marks := s.tables.marks.set p true } }

theorem isolatePass_eq : s.isolatePass p = (s.isolatedBefore p).reportChange p := rfl

theorem withoutHeld_eq {tb : Tables} : withoutHeld tb p tr = tr.purge tb p := rfl

theorem isolatedBefore_pool : ∀ e ∈ (s.isolatedBefore p).traffic.pool, e.actuator.pass ≠ p := by
  show ∀ e ∈ (s.traffic.purge s.tables p).pool, e.actuator.pass ≠ p
  rw [purge_pool]
  intro e he
  have := (List.mem_filter.mp he).2
  simpa [HeldEntry.isOf] using this

/-- R129, R133: after the purge the report of the change finds no held command. -/
theorem isolatePass_whole : s.isolatePass p = s.isolatedBefore p := by
  have hround : (s.isolatedBefore p).traffic.round (s.isolatedBefore p).view p = (s.isolatedBefore p).traffic :=
    round_of_none isolatedBefore_pool
  rw [isolatePass_eq]
  exact congrArg (fun tr => { s.isolatedBefore p with traffic := tr }) hround

theorem hasEntry_iff : hasEntry tr a = false ↔ lineOf tr a = [] := by
  simp [hasEntry, lineOf, List.filter_eq_nil_iff]

/-- R158: when a pass is at rest. -/
theorem atRest_iff : atRest v tr p = true ↔ ∀ a, a.pass = p → hasCommandPoint v.tables a = true →
    confirmedSafe v a = true ∧ lineOf tr a = [] := by
  simp only [atRest, List.all_eq_true, mem_safeStateOrder_iff, Bool.or_eq_true, Bool.not_eq_true', Bool.and_eq_true,
    hasEntry_iff]
  refine forall₂_congr fun a _ => ⟨fun h hcp => h.resolve_left (by rw [hcp]; decide), fun h => ?_⟩
  by_cases hcp : hasCommandPoint v.tables a = true
  · exact .inr (h hcp)
  · exact .inl (by simpa using hcp)

theorem confirmedSafe_gate {c : ChuteId} : confirmedSafe v (.gate p c) = true ↔
    ∃ g, ((v.passes.get p).chutes.get c).gate = some g ∧ g ≤ gateTolerance v.tables p c := by
  cases h : ((v.passes.get p).chutes.get c).gate <;> simp [confirmedSafe, h]

theorem isolateRequest_barred (hb : s.bar = true) : isolateRequest t s = refuse s .refusedBarred := if_pos hb

theorem isolateRequest_none (hb : s.bar = false) (hp : requestPass t = none) : isolateRequest t s = refuse s .refusedRange := by
  rw [isolateRequest, if_neg (ne_true_of_eq_false hb), hp]

theorem isolateRequest_some (hb : s.bar = false) (hp : requestPass t = some p) :
    isolateRequest t s = done { s with pendingIsolation := some { pass := p, station := t.src } } := by
  rw [isolateRequest, if_neg (ne_true_of_eq_false hb), hp]

theorem isolateConfirm_barred (hb : s.bar = true) : isolateConfirm t s = refuse s .refusedBarred := if_pos hb

theorem isolateConfirm_none (hb : s.bar = false) (hp : requestPass t = none) : isolateConfirm t s = refuse s .refusedRange := by
  rw [isolateConfirm, if_neg (ne_true_of_eq_false hb), hp]

theorem isolateConfirm_mismatch (hb : s.bar = false) (hp : requestPass t = some p)
    (h : s.pendingIsolation ≠ some { pass := p, station := t.src }) :
    isolateConfirm t s = { state := { s with pendingIsolation := none, bar := true }, status := .refusedBarred, value := 0 } := by
  rw [isolateConfirm, if_neg (ne_true_of_eq_false hb), hp]
  exact if_neg h

theorem isolateConfirm_match (hb : s.bar = false) (hp : requestPass t = some p)
    (h : s.pendingIsolation = some { pass := p, station := t.src }) :
    isolateConfirm t s = confirmIsolation p { s with pendingIsolation := none } := by
  rw [isolateConfirm, if_neg (ne_true_of_eq_false hb), hp]
  exact if_pos h

theorem confirmIsolation_state (h : (s.pass p).mode.inService = false) : confirmIsolation p s = refuse s .refusedState :=
  if_pos (by rw [h]; rfl)

theorem confirmIsolation_busy (h : (s.pass p).mode.inService = true) (hr : atRest s.view s.traffic p = false) :
    confirmIsolation p s = refuse s .busy :=
  (if_neg (by rw [h]; decide)).trans (if_pos (by rw [hr]; rfl))

theorem confirmIsolation_done (h : (s.pass p).mode.inService = true) (hr : atRest s.view s.traffic p = true) :
    confirmIsolation p s = done (s.isolatePass p) :=
  (if_neg (by rw [h]; decide)).trans (if_neg (by rw [hr]; decide))

theorem isolatePass_elsewhere : elsewhere p s (s.isolatePass p) := by
  have hmarked : Within p (s.isolatedBefore p) (s.isolatePass p) := by
    rw [isolatePass_eq]
    exact reportChange_within
  exact elsewhere_of_within hmarked fun q hq => ⟨Quad.get_set_ne hq _ _, purge_spares (Ne.symm hq) s.traffic⟩

end isolation

/-- Settles O42. -/
theorem isolationTakesTwoSteps : Obligations.IsolationTakesTwoSteps := by
  refine ⟨fun t s => ⟨fun hf => ⟨fun hb => ?_, fun hb hp => ?_, fun p hb hp => ?_⟩,
    fun hf => ⟨fun hb => ?_, fun hb hp => ?_, fun p hb hp => ⟨fun hi => ?_, fun hi => ⟨fun hm => ?_, fun hm hr => ?_, fun hm hr => ?_⟩⟩⟩⟩,
    fun v tr p => ?_⟩
  · exact exec_request rfl hf (isolateRequest_barred (s := heard .control s) hb)
  · exact exec_request rfl hf (isolateRequest_none (s := heard .control s) hb hp)
  · exact exec_request rfl hf (isolateRequest_some (s := heard .control s) hb hp)
  · exact exec_request rfl hf (isolateConfirm_barred (s := heard .control s) hb)
  · exact exec_request rfl hf (isolateConfirm_none (s := heard .control s) hb hp)
  · exact exec_request rfl hf (isolateConfirm_mismatch (s := heard .control s) hb hp hi)
  · exact exec_request rfl hf ((isolateConfirm_match (s := heard .control s) hb hp hi).trans (confirmIsolation_state hm))
  · exact exec_request rfl hf ((isolateConfirm_match (s := heard .control s) hb hp hi).trans (confirmIsolation_busy hm hr))
  · refine ⟨_, exec_request rfl hf ((isolateConfirm_match (s := heard .control s) hb hp hi).trans (confirmIsolation_done hm hr)), 
      isolatePass_elsewhere, rfl, rfl, ?_, ?_⟩
    · rw [isolatePass_whole]
      exact Quad.get_set_self _ _ _
    · rw [isolatePass_whole]
      exact isolatedBefore_pool
  · rw [atRest_iff]
    refine ⟨fun h => ⟨fun c hcp => ?_, fun n hcp => ?_, fun n hcp => ?_⟩, fun ⟨hg, hs, hb⟩ a ha hcp => ?_⟩
    · obtain ⟨hsafe, hline⟩ := h _ rfl hcp
      exact ⟨confirmedSafe_gate.mp hsafe, hline⟩
    · obtain ⟨hsafe, hline⟩ := h _ rfl hcp
      exact ⟨of_decide_eq_true hsafe, hline⟩
    · obtain ⟨hsafe, hline⟩ := h _ rfl hcp
      exact ⟨of_decide_eq_true hsafe, hline⟩
    · cases a with
      | gate q c =>
        obtain rfl : q = p := ha
        obtain ⟨hsafe, hline⟩ := hg c hcp
        exact ⟨confirmedSafe_gate.mpr hsafe, hline⟩
      | signal q n =>
        obtain rfl : q = p := ha
        obtain ⟨hsafe, hline⟩ := hs n hcp
        exact ⟨decide_eq_true hsafe, hline⟩
      | breaker q n =>
        obtain rfl : q = p := ha
        obtain ⟨hsafe, hline⟩ := hb n hcp
        exact ⟨decide_eq_true hsafe, hline⟩

end Sys2Proof.Machine

/-! Forced safe commands: that they leave the actuator ordered safe and are announced (R87 to R89, R101). The writes of a
pass's own settings (R77, R87, R161). -/

namespace Sys2Proof.Machine

section forcing

variable {s : State} {p : PassId} {a : Actuator} {r : Reason} {n : TipId} {v : View} {tr tr' : Traffic} {tb : Tables}
variable {c : ControlSide} {cls : NoticeClass} {ok : NoticeSource → NoticeClass → Nat → Prop} {D : Nat → Prop} {q : PassId}

theorem Onward.told (h : Onward p cls c tr.ctl) (ht : Told tb ok tr tr') : Onward p cls c tr'.ctl :=
  Relation.ReflTransGen.head_induction_on (motive := fun d _ => Onward p cls c d → Onward p cls c tr'.ctl)
    ht id (fun hs _ ih hd => ih (hd.step hs)) h

theorem Heard.told (h : Heard tb p cls D c tr.ctl) (ht : Told tb ok tr tr') (hD : ∀ n, ok (.pass p) cls n → D n) :
    Heard tb p cls D c tr'.ctl := h.steps ht hD

theorem reportChange_told : Told s.tables ok s.traffic (s.reportChange p).traffic := round_told (v := s.view) s.traffic

theorem placeControl_told (x : Queued) : Told tb ok tr (tr.placeControl tb x) := ControlSide.place_steps _

theorem respond_told {t : Telegram} {b : Bool} {rep : Reply} :
    Told rep.state.tables ok rep.state.traffic (respond t b rep).traffic := placeControl_told (tr := rep.state.traffic) _

theorem relayApplied_told {h : Hit} {t : Telegram} : Told s.tables ok s.traffic (s.relayApplied h t).traffic := by
  unfold State.relayApplied
  split
  · exact placeControl_told (tr := s.traffic) _
  · exact placeControl_told (tr := s.traffic) _
  · exact .refl'

theorem relayApplied_actions {h : Hit} {t : Telegram} : (s.relayApplied h t).traffic.actions = s.traffic.actions := by
  unfold State.relayApplied
  split <;> rfl

theorem respond_actions {t : Telegram} {b : Bool} {rep : Reply} :
    (respond t b rep).traffic.actions = rep.state.traffic.actions := rfl

/-- R144: a forced actuator with a command point is ordered safe. -/
theorem force_orderedSafe (hord : LinesOrdered s.traffic) (hcp : hasCommandPoint s.tables a = true) :
    orderedSafe (s.force a r).traffic a := by
  unfold State.force
  rw [if_pos hcp]
  exact originate_orderedSafe (v := s.view) hcp (lineShaped_of_ordered hord a)

theorem force_ordered (hord : LinesOrdered s.traffic) : LinesOrdered (s.force a r).traffic := by
  unfold State.force
  split
  · exact originate_ordered (v := s.view) hord
  · exact hord

theorem force_tables : (s.force a r).tables = s.tables := by
  unfold State.force
  split <;> rfl

/-- R88, R89, R101: a forced safe command raises FORCED with its reason. -/
theorem force_heard (ha : a.pass = p) (hcp : hasCommandPoint s.tables a = true)
    (hen : (s.tables.notices.get .forced).enabled = true) (hon : Onward p .forced c s.traffic.ctl) (hD : D r.code) :
    Heard s.tables p .forced D c (s.force a r).traffic.ctl := by
  subst ha
  unfold State.force
  rw [if_pos hcp]
  have htold : Told s.tables (fun _ _ _ => False) s.traffic (s.originate a).traffic := originate_told (v := s.view) s.traffic
  exact (hon.told htold).heard hen Nat.one_pos hD

/-- R116: no on is allowed for a signal over a FULL grizzly. -/
theorem judge_full (h : ((v.passes.get p).tips.get n).standing = .full) :
    ∀ tr k, ¬Allowed (judge v tr (.signal p n) k) := by
  intro tr k hallowed
  refine (judge_allowed_iff.mp hallowed).2 (.inr fun hmet => ?_)
  obtain ⟨-, -, hbelow⟩ := hmet
  rw [h] at hbelow
  cases hbelow

/-- A reported change admits nothing to a line that is allowed nothing. -/
theorem reportChange_keeps_orderedSafe (hnot : ∀ tr k, ¬Allowed (judge s.view tr a k)) :
    orderedSafe (s.reportChange p).traffic a ↔ orderedSafe s.traffic a :=
  orderedSafe_of_restLine (round_line hnot)

theorem reportStandingChange_keeps_orderedSafe (hnot : ∀ tr k, ¬Allowed (judge s.view tr a k)) (hord : LinesOrdered s.traffic)
    (h : orderedSafe s.traffic a) : orderedSafe (s.reportStandingChange p).traffic a :=
  (orderedSafe_of_restLine (round_line hnot)).mpr (standingCheck_keeps_orderedSafe (v := s.view) (p := p) hord h)

end forcing

/-! ### Grizzly standings (R87, R88) -/

section standings

variable {s : State} {p : PassId} {n : TipId} {now : Standing} {c : ControlSide}

/-- R87: a pass whose tip-point record has a new standing. -/
def Pass.withGrizzly (x : Pass) (n : TipId) (now : Standing) : Pass :=
  { x with tips := x.tips.set n { x.tips.get n with standing := now } }

/-- R87, R88: the crossing of a grizzly, reported. -/
def State.crossGrizzly (p : PassId) (n : TipId) (now : Standing) (s : State) : State :=
  let crossed : State := { s with passes := s.passes.set p ((s.pass p).withGrizzly n now) }
  State.reportChange p
    (if now = .full ∧ (((s.pass p).tips.get n).signal = .isOn ∨ hasNonSafe s.traffic (.signal p n) = true) then
      crossed.force (.signal p n) .grizzly
    else crossed)

theorem setStanding_same (h : standingOf ((s.tables.grizzly.get p).get n) ((s.pass p).column.accums.get n).tonnage =
    ((s.pass p).tips.get n).standing) : s.setStanding p n = s := if_pos h

theorem setStanding_crossed (h : standingOf ((s.tables.grizzly.get p).get n) ((s.pass p).column.accums.get n).tonnage = now)
    (hne : now ≠ ((s.pass p).tips.get n).standing) : s.setStanding p n = s.crossGrizzly p n now := by
  subst h
  unfold State.setStanding
  simp only
  rw [if_neg hne]
  have hshown : permitShown (s.setTip p n { (s.pass p).tips.get n with
      standing := standingOf ((s.tables.grizzly.get p).get n) ((s.pass p).column.accums.get n).tonnage }) p n = true ↔
      ((s.pass p).tips.get n).signal = .isOn ∨ hasNonSafe s.traffic (.signal p n) = true := by
    simp [permitShown, Trio.get_set_self]
  simp only [hshown]
  rfl

theorem crossGrizzly_full (hpermit : ((s.pass p).tips.get n).signal = .isOn ∨ hasNonSafe s.traffic (.signal p n) = true) :
    s.crossGrizzly p n .full = State.reportChange p
      (State.force (.signal p n) .grizzly { s with passes := s.passes.set p ((s.pass p).withGrizzly n .full) }) :=
  congrArg (State.reportChange p) (if_pos ⟨rfl, hpermit⟩)

/-- R88: a crossing to FULL under a permit leaves the signal ordered safe, and announces it. -/
theorem crossGrizzly_orderedSafe (hord : LinesOrdered s.traffic) (hcp : hasCommandPoint s.tables (.signal p n) = true)
    (hpermit : ((s.pass p).tips.get n).signal = .isOn ∨ hasNonSafe s.traffic (.signal p n) = true) :
    orderedSafe (s.crossGrizzly p n .full).traffic (.signal p n) := by
  rw [crossGrizzly_full hpermit]
  refine (reportChange_keeps_orderedSafe (judge_full ?_)).mpr (force_orderedSafe (r := .grizzly)
    (s := { s with passes := s.passes.set p ((s.pass p).withGrizzly n .full) }) hord hcp)
  show (((State.force _ _ _).pass p).tips.get n).standing = .full
  rw [State.force_pass]
  show (((s.passes.set p _).get p).tips.get n).standing = .full
  rw [Quad.get_set_self]
  exact congrArg TipRecord.standing (Trio.get_set_self _ _ _)

theorem crossGrizzly_heard (hcp : hasCommandPoint s.tables (.signal p n) = true)
    (hpermit : ((s.pass p).tips.get n).signal = .isOn ∨ hasNonSafe s.traffic (.signal p n) = true)
    (hen : (s.tables.notices.get .forced).enabled = true) (hon : Onward p .forced c s.traffic.ctl) :
    Heard s.tables p .forced (· = 6) c (s.crossGrizzly p n .full).traffic.ctl := by
  rw [crossGrizzly_full hpermit]
  have hforced : Heard s.tables p .forced (· = 6) c _ := force_heard (r := .grizzly) (a := .signal p n)
    (s := { s with passes := s.passes.set p ((s.pass p).withGrizzly n .full) }) rfl hcp hen hon rfl
  have htold := reportChange_told (p := p) (ok := fun _ _ _ => False)
    (s := State.force (.signal p n) .grizzly { s with passes := s.passes.set p ((s.pass p).withGrizzly n .full) })
  rw [force_tables] at htold
  exact hforced.told htold fun _ h => h.elim

end standings

/-! ### The writes of a pass's own settings (R77, R87, R161) -/

section passWrites

variable {s : State} {p : PassId} {t : Telegram} {x : Int} {n : TipId}

theorem passBusy_iff {tr : Traffic} : passBusy tr p = true ↔ ∃ e ∈ tr.actions, e.actuator.pass = p := by simp [passBusy]

/-- R161: a write of Configured once its value has passed. -/
def configuredWritten (p : PassId) (x : Int) (s : State) : Reply :=
  match (s.pass p).mode with
  | .unconfigured => if x = 1 then done (s.configurePass p) else done s
  | _ =>
    if x = 1 then done s
    else if passBusy s.traffic p then refuse s .busy
    else done (s.unconfigurePass p)

theorem requestReply_writeConfigured : requestReply (.writeConfigured p) t s =
    checkedWrite (.param p .configured) t.value.toInt s (configuredWritten p t.value.toInt) := rfl

theorem configuredWritten_unconfigured (hm : (s.pass p).mode = .unconfigured) :
    configuredWritten p x s = if x = 1 then done (s.configurePass p) else done s := by
  rw [configuredWritten, hm]

theorem configuredWritten_isolated (hm : (s.pass p).mode = .isolated) : configuredWritten p x s =
    if x = 1 then done s else if passBusy s.traffic p then refuse s .busy else done (s.unconfigurePass p) := by
  rw [configuredWritten, hm]

theorem configuredWritten_busy (hm : (s.pass p).mode = .isolated) (hx : x ≠ 1) (hb : passBusy s.traffic p = true) :
    configuredWritten p x s = refuse s .busy := by
  rw [configuredWritten_isolated hm, if_neg hx, if_pos hb]

theorem configuredWritten_free (hm : (s.pass p).mode = .isolated) (hx : x ≠ 1) (hb : passBusy s.traffic p = false) :
    configuredWritten p x s = done (s.unconfigurePass p) := by
  rw [configuredWritten_isolated hm, if_neg hx, if_neg (ne_true_of_eq_false hb)]

/-- R77: a write of L once its value has passed. -/
def lengthWritten (p : PassId) (x : Int) (s : State) : Reply :=
  let stored := s.store (.param p .len) x
  if (stored.pass p).mode = .isolated then done (stored.resetHeights p) else done stored

theorem requestReply_writeL : requestReply (.writeL p) t s =
    checkedWrite (.param p .len) t.value.toInt s (lengthWritten p t.value.toInt) := rfl

/-- R87: a write of a grizzly limit once its value has passed. -/
def grizzlyWritten (p : PassId) (n : TipId) (x : Int) (s : State) : Reply :=
  let stored := s.store (.grizzly p n) x
  if (stored.pass p).mode = .unconfigured then
    done (stored.setTip p n
      { (stored.pass p).tips.get n with
        standing := standingOf x.toNat ((stored.pass p).column.accums.get n).tonnage })
  else done (stored.setStanding p n)

theorem requestReply_writeGrizzlyLimit : requestReply (.writeGrizzlyLimit p n) t s =
    checkedWrite (.grizzly p n) t.value.toInt s (grizzlyWritten p n t.value.toInt) := rfl

/-- A state that differs from `s` in tables, pass `p` and its traffic, then carried on within `p`. -/
theorem carriedOut_of_traffic {m w : State} {tb : Tables} {y : Pass} {tr : Traffic}
    (hm : m = { heard .control s with tables := tb, passes := s.passes.set p y, traffic := tr })
    (htr : ∀ q, q ≠ p → Spares q s.traffic tr) (hw : Within p m w) (hp : w.pass p = m.pass p) :
    elsewhere p s w ∧ w.pass p = y ∧ w = { heard .control s with tables := tb, passes := w.passes, traffic := w.traffic } := by
  subst hm
  exact ⟨elsewhere_of_within hw fun q hq => ⟨Quad.get_set_ne hq _ _, htr q hq⟩, hp.trans (Quad.get_set_self _ _ _), hw.1⟩

theorem carriedOut_of {m w : State} {tb : Tables} {y : Pass}
    (hm : m = { heard .control s with tables := tb, passes := s.passes.set p y }) (hw : Within p m w) (hp : w.pass p = m.pass p) :
    elsewhere p s w ∧ w.pass p = y ∧ w = { heard .control s with tables := tb, passes := w.passes, traffic := w.traffic } :=
  carriedOut_of_traffic hm (fun _ _ => .refl') hw hp

/-- R77: the record of a pass whose heights are reset. -/
def Pass.heightsReset (y : Pass) : Pass := { y with est := { y.est with h := 0, hc := 0, hs := 0, band := .empty } }

theorem resetHeights_empty (h : (s.pass p).est.band = .empty) : s.resetHeights p = s.setPass p (s.pass p).heightsReset := by
  unfold State.resetHeights
  rw [handBand_eq, State.setPass_pass_self]
  exact if_pos h.symm

theorem resetHeights_moved (h : (s.pass p).est.band ≠ .empty) : s.resetHeights p =
    ((s.setPass p (s.pass p).heightsReset).raise (.pass p) .band 0).reportStandingChange p := by
  unfold State.resetHeights
  rw [handBand_eq, State.setPass_pass_self]
  exact if_neg h.symm

theorem lengthWritten_rest (hm : (s.pass p).mode ≠ .isolated) : lengthWritten p x s = done (s.store (.param p .len) x) := if_neg hm

theorem lengthWritten_empty (hm : (s.pass p).mode = .isolated) (hb : (s.pass p).est.band = .empty) : lengthWritten p x s =
    done ((s.store (.param p .len) x).setPass p (s.pass p).heightsReset) :=
  (if_pos hm).trans (congrArg done (resetHeights_empty hb))

theorem lengthWritten_moved (hm : (s.pass p).mode = .isolated) (hb : (s.pass p).est.band ≠ .empty) : lengthWritten p x s =
    done ((((s.store (.param p .len) x).setPass p (s.pass p).heightsReset).raise (.pass p) .band 0).reportStandingChange p) :=
  (if_pos hm).trans (congrArg done (resetHeights_moved hb))

theorem standingOf_toNat {tonnage : Nat} (_h : 0 ≤ x) :
    standingOf x.toNat tonnage = if 0 < x ∧ x ≤ tonnage then .full else .below := by
  unfold standingOf
  refine if_congr ?_ rfl rfl
  omega

theorem grizzlyWritten_unconfigured {now : Standing} (hm : (s.pass p).mode = .unconfigured)
    (hn : standingOf x.toNat ((s.pass p).column.accums.get n).tonnage = now) : grizzlyWritten p n x s =
      done ((s.store (.grizzly p n) x).setPass p ((s.pass p).withGrizzly n now)) := by
  subst hn
  exact if_pos hm

theorem withGrizzly_same {y : Pass} {now : Standing} (h : now = (y.tips.get n).standing) : y.withGrizzly n now = y := by
  subst h
  unfold Pass.withGrizzly
  fin_cases n <;> rfl

/-- The stored limit reads back. -/
theorem store_grizzly_get : ((s.store (.grizzly p n) x).tables.grizzly.get p).get n = x.toNat := by
  show ((s.tables.grizzly.set p ((s.tables.grizzly.get p).set n x.toNat)).get p).get n = x.toNat
  rw [Quad.get_set_self, Trio.get_set_self]

theorem grizzlyWritten_same {now : Standing} (hm : (s.pass p).mode ≠ .unconfigured)
    (hn : standingOf x.toNat ((s.pass p).column.accums.get n).tonnage = now) (hs : now = ((s.pass p).tips.get n).standing) :
    grizzlyWritten p n x s = done ((s.store (.grizzly p n) x).setPass p ((s.pass p).withGrizzly n now)) := by
  have hsame : (s.store (.grizzly p n) x).setStanding p n = s.store (.grizzly p n) x :=
    setStanding_same (by rw [store_grizzly_get]; exact hn.trans hs)
  have hset : (s.store (.grizzly p n) x).setPass p (s.pass p) = s.store (.grizzly p n) x := State.setPass_pass_same
  rw [withGrizzly_same hs, hset]
  exact (if_neg hm).trans (congrArg done hsame)

theorem grizzlyWritten_crossed {now : Standing} (hm : (s.pass p).mode ≠ .unconfigured)
    (hn : standingOf x.toNat ((s.pass p).column.accums.get n).tonnage = now) (hs : now ≠ ((s.pass p).tips.get n).standing) :
    grizzlyWritten p n x s = done ((s.store (.grizzly p n) x).crossGrizzly p n now) :=
  (if_neg hm).trans (congrArg done (setStanding_crossed (by rw [store_grizzly_get]; exact hn) hs))

theorem crossGrizzly_within {now : Standing} :
    Within p { s with passes := s.passes.set p ((s.pass p).withGrizzly n now) } (s.crossGrizzly p n now) := by
  unfold State.crossGrizzly
  exact .append (.iteForce rfl .refl') reportChange_within

theorem crossGrizzly_pass {now : Standing} : (s.crossGrizzly p n now).pass p = (s.pass p).withGrizzly n now := by
  unfold State.crossGrizzly
  simp only [State.reportChange_pass]
  split
  · rw [State.force_pass]
    exact Quad.get_set_self _ _ _
  · exact Quad.get_set_self _ _ _

theorem writeAllowed_param {sel : ParamSel} : writeAllowed s (.param p sel) = !(s.pass p).mode.inService := rfl

theorem writeAllowed_grizzly : writeAllowed s (.grizzly p n) = !(s.pass p).mode.inService := rfl

/-- R88: the crossing's forced safe command stands, and is announced, once the write is answered. -/
theorem crossGrizzly_answered (hord : LinesOrdered s.traffic) (hcp : hasCommandPoint s.tables (.signal p n) = true)
    (hpermit : ((s.pass p).tips.get n).signal = .isOn ∨ hasNonSafe s.traffic (.signal p n) = true) :
    orderedSafe (respond t false (done (s.crossGrizzly p n .full))).traffic (.signal p n)
      ∧ announced s.tables (.pass p) .forced 6 s.traffic.ctl (respond t false (done (s.crossGrizzly p n .full))).traffic.ctl := by
  constructor
  · rw [orderedSafe_of_actions respond_actions]
    exact crossGrizzly_orderedSafe hord hcp hpermit
  · refine Heard.announced fun hen => ?_
    have htold := respond_told (t := t) (b := false) (rep := done (s.crossGrizzly p n .full)) (ok := fun _ _ _ => False)
    have htables : (done (s.crossGrizzly p n .full)).state.tables = s.tables := crossGrizzly_within.tables_eq
    rw [htables] at htold
    exact (crossGrizzly_heard hcp hpermit hen .refl').told htold fun _ h => h.elim

end passWrites

/-- Settles O41. -/
theorem passWrites : Obligations.PassWrites := by
  refine fun t s p => ⟨fun limit tonnage => rfl, passBusy_iff, fun hf => ?_, fun hf => ?_, fun n hf => ?_⟩
  · obtain ⟨hstate, hrange, hcarry⟩ := exec_checkedWrite hf requestReply_writeConfigured (c := .writeConfigured t) rfl rfl
    refine ⟨fun hm => hstate (by rw [writeAllowed_param, hm]; rfl), fun hm h0 h1 =>
      hrange (by rw [writeAllowed_param, hm]; rfl) (within_out (by omega)), fun hm hx => ?_, fun h => ?_, fun hm hx => ⟨fun hb => ?_, fun hb => ?_⟩⟩
    · have hreply := hcarry (by rw [writeAllowed_param, hm]; rfl) (within_iff.mpr (by rw [hx]; decide))
      rw [configuredWritten_unconfigured (s := heard .control s) hm, if_pos hx] at hreply
      exact ⟨hreply, carriedOut_of rfl reportChange_within (State.reportChange_pass _)⟩
    · obtain ⟨hm, hx⟩ | ⟨hm, hx⟩ := h
      · have hreply := hcarry (by rw [writeAllowed_param, hm]; rfl) (within_iff.mpr (by rw [hx]; decide))
        rwa [configuredWritten_unconfigured (s := heard .control s) hm, if_neg (by omega)] at hreply
      · have hreply := hcarry (by rw [writeAllowed_param, hm]; rfl) (within_iff.mpr (by rw [hx]; decide))
        rwa [configuredWritten_isolated (s := heard .control s) hm, if_pos hx] at hreply
    · have hreply := hcarry (by rw [writeAllowed_param, hm]; rfl) (within_iff.mpr (by rw [hx]; decide))
      rwa [configuredWritten_busy (s := heard .control s) hm (by omega) hb] at hreply
    · have hreply := hcarry (by rw [writeAllowed_param, hm]; rfl) (within_iff.mpr (by rw [hx]; decide))
      rw [configuredWritten_free (s := heard .control s) hm (by omega) hb] at hreply
      have hspares : ∀ q, q ≠ p → Spares q s.traffic
          { s.traffic with history := s.traffic.history.set p (Duo.all clearedHistory) } :=
        fun q hq => ⟨Quad.get_set_ne hq _ _, rfl, .refl _⟩
      exact ⟨hreply, carriedOut_of_traffic rfl hspares reportChange_within (State.reportChange_pass _)⟩
  · obtain ⟨hstate, hrange, hcarry⟩ := exec_checkedWrite hf requestReply_writeL (c := .writeL t) rfl rfl
    refine ⟨fun hm => hstate (by rw [writeAllowed_param, hm]; rfl), fun hm hx =>
      hrange (by rw [writeAllowed_param, hm]; rfl) (within_out hx), fun h0 h1 => ⟨fun hm => ?_, fun hm => ?_⟩⟩
    · have hreply := hcarry (by rw [writeAllowed_param, hm]; rfl) (within_iff.mpr ⟨h0, h1⟩)
      rw [lengthWritten_rest (s := heard .control s) (by rw [show ((heard .control s).pass p).mode = .unconfigured from hm]; decide)]
        at hreply
      exact ⟨hreply, fun q _ => ⟨rfl, rfl, rfl, .refl _⟩, rfl, rfl⟩
    · have hreply := hcarry (by rw [writeAllowed_param, hm]; rfl) (within_iff.mpr ⟨h0, h1⟩)
      intro emptied
      by_cases hband : (s.pass p).est.band = .empty
      · rw [lengthWritten_empty (s := heard .control s) hm hband] at hreply
        rw [if_pos hband]
        exact ⟨hreply, carriedOut_of rfl .refl' rfl⟩
      · rw [lengthWritten_moved (s := heard .control s) hm hband] at hreply
        rw [if_neg hband]
        exact ⟨hreply, carriedOut_of rfl ((raise_within _ _ _).append reportStandingChange_within) rfl⟩
  · obtain ⟨hstate, hrange, hcarry⟩ := exec_checkedWrite hf requestReply_writeGrizzlyLimit (c := .writeGrizzlyLimit t) rfl rfl
    refine ⟨fun hm => hstate (by rw [writeAllowed_grizzly, hm]; rfl), fun hm hx =>
      hrange (by rw [writeAllowed_grizzly, hm]; rfl) (within_out hx), fun hm h0 h1 => ?_⟩
    have hreply := hcarry (by rw [writeAllowed_grizzly, hm]; rfl) (within_iff.mpr ⟨h0, h1⟩)
    intro tb r now following forced
    have hnow : standingOf t.value.toInt.toNat ((s.pass p).column.accums.get n).tonnage = now := standingOf_toNat h0
    have hforced : ((heard .control s).store (.grizzly p n) t.value.toInt).crossGrizzly p n now = forced.reportChange p := by
      unfold State.crossGrizzly
      simp only [force_eq_afterForcing]
      rfl
    refine ⟨?_, fun hm' hfull hbelow hpermit hcp hs => ?_⟩
    · by_cases hstay : (s.pass p).mode = .unconfigured ∨ now = r.standing
      · rw [if_pos hstay]
        have hwritten : grizzlyWritten p n t.value.toInt (heard .control s) =
            done (((heard .control s).store (.grizzly p n) t.value.toInt).setPass p ((s.pass p).withGrizzly n now)) := by
          by_cases hu : (s.pass p).mode = .unconfigured
          · exact grizzlyWritten_unconfigured (s := heard .control s) hu hnow
          · exact grizzlyWritten_same (s := heard .control s) hu hnow (hstay.resolve_left hu)
        rw [hwritten] at hreply
        exact ⟨hreply, carriedOut_of rfl .refl' rfl⟩
      · rw [if_neg hstay]
        obtain ⟨hu, hne⟩ := not_or.mp hstay
        rw [grizzlyWritten_crossed (s := heard .control s) hu hnow hne, hforced] at hreply
        refine ⟨hreply, carriedOut_of (tb := tb) (y := following) rfl (hforced ▸ crossGrizzly_within) ?_⟩
        rw [← hforced]
        exact crossGrizzly_pass.trans (Quad.get_set_self _ _ _).symm
    · have hne : now ≠ r.standing := by rw [hfull, show r.standing = .below from hbelow]; decide
      have hu : (s.pass p).mode ≠ .unconfigured := by rw [hm']; decide
      rw [grizzlyWritten_crossed (s := heard .control s) hu hnow hne] at hreply
      rw [hfull] at hreply
      obtain ⟨hsafe, hheard⟩ := crossGrizzly_answered (s := (heard .control s).store (.grizzly p n) t.value.toInt) (t := t)
        hs.2.2.2 hcp hpermit
      exact ⟨_, hreply, hsafe, hheard⟩

end Sys2Proof.Machine

/-! Reports of gates, signals and breakers (R80 to R84, R89, R97, R99, R104, R142). -/

namespace Sys2Proof.Machine

section reports

variable {s : State} {p : PassId} {t : Telegram} {a : Actuator} {c : Cause} {tel : Option Interrupted} {n : TipId}
variable {x : Pass} {now : Word} {v : View} {tr : Traffic} {e : ActionEntry} {b : Prop} [Decidable b]

/-- R154: a trip cause, where there is one. -/
theorem tripIf_record : (if b then s.tripCause p c tel else s).pass p = if b then (s.pass p).withTrip c s.time tel else s.pass p := by
  split
  · exact tripCause_record
  · rfl

theorem tripIf_time : (if b then s.tripCause p c tel else s).time = s.time := by
  split
  · exact tripCause_time
  · rfl

theorem tripIf_tables : (if b then s.tripCause p c tel else s).tables = s.tables := by
  split
  · exact (tripCause_within c tel).tables_eq
  · rfl

theorem withTrip_mode : (x.withTrip c now tel).mode = x.mode.afterTrip True := congrArg Pass.mode (Pass.withTrip_shape c now tel x).1

theorem withTripIf_mode : (if b then x.withTrip c now tel else x).mode = x.mode.afterTrip b := by
  by_cases hb : b
  · rw [if_pos hb, withTrip_mode, afterTrip_of hb]
  · rw [if_neg hb, afterTrip_of_not hb]

theorem reportIf_pass {q : PassId} : (if b then s else s.reportChange p).pass q = s.pass q := by split <;> rfl

theorem afterCandidate_pass {q : PassId} : (afterCandidate a s).pass q = s.pass q := rfl

/-- R139: a candidate is tested for confirmation, unless it is a FAULT against an ISSUED start. -/
theorem candidate_gate {g : ChuteId} : s.candidate (.gate p g) t = afterCandidate (.gate p g) s := rfl

theorem candidate_signal : s.candidate (.signal p n) t = afterCandidate (.signal p n) s := rfl

theorem candidate_breaker_none (h : issuedEntry s.traffic (.breaker p n) = none) :
    s.candidate (.breaker p n) t = afterCandidate (.breaker p n) s := by
  unfold State.candidate
  rw [h]
  rfl

theorem candidate_breaker_some (h : issuedEntry s.traffic (.breaker p n) = some e) : s.candidate (.breaker p n) t =
    if ((s.pass p).tips.get n).breaker = .fault ∧ e.direction = .nonSafe then s.failAction e (carriedReport t)
    else afterCandidate (.breaker p n) s := by
  unfold State.candidate
  rw [h]
  rfl

theorem candidate_breaker_sound (h : ((s.pass p).tips.get n).breaker ≠ .fault) :
    s.candidate (.breaker p n) t = afterCandidate (.breaker p n) s := by
  cases he : issuedEntry s.traffic (.breaker p n) with
  | none => exact candidate_breaker_none he
  | some e => rw [candidate_breaker_some he, if_neg fun hf => h hf.1]

end reports

/-- R99: when a report shows an uncommanded movement. -/
theorem movedUncommanded_iff {s : State} {p : PassId} {c : ChuteId} {before : Option Nat} {opening : Nat} :
    movedUncommanded s p c before opening = true ↔
      gateTolerance s.tables p c < opening ∧ hasCommandPoint s.tables (.gate p c) = true
        ∧ hasIssued s.traffic (.gate p c) .nonSafe = false
        ∧ (((s.traffic.history.get p).get c).reference = .closed
            ∨ ((s.traffic.history.get p).get c).reference = .unset ∧ before = none
              ∧ ((s.traffic.history.get p).get c).lastIssued = .closing) := by
  simp [movedUncommanded, and_assoc]

/-- Settles O31: set, tested, reported, handed to the Action Queue, relayed. -/
theorem gatePositionReport_holds : Obligations.GatePositionReport := by
  intro t s h hf hr p c opening hist above moved rushed noted kept tested tested' changed record
  have hexec : exec (.gatePosition t) s = .next ((gatePositionReport h t s).relayApplied h t) := by
    rw [exec_report rfl hf, hr]
    rfl
  have hmoved : movedUncommanded kept p c ((s.pass p).chutes.get c).gate opening = true ↔ moved := movedUncommanded_iff
  have hafter : ∀ w, w = tested →
      afterCandidate (.gate p c)
        (if ((s.pass p).chutes.get c).gate = some opening then
          (if rushed then w.tripCause p .mudRush (carriedReport t) else w)
        else State.reportChange p (if rushed then w.tripCause p .mudRush (carriedReport t) else w))
          = afterCandidate (.gate p c) changed := fun w hw => by rw [hw]
  have heq : gatePositionReport h t s = afterCandidate (.gate p c) changed := hafter _ (if_congr hmoved rfl rfl)
  have hkept : kept.pass p = noted := Quad.get_set_self _ _ _
  have htested : tested.pass p = record := by
    rw [show tested = if moved then kept.tripCause p .gateMoved (carriedReport t) else kept from rfl, tripIf_record, hkept]
  have hpass : ((gatePositionReport h t s).relayApplied h t).pass p =
      if rushed then record.withTrip .mudRush s.time (carriedReport t) else record := by
    have htime : tested.time = s.time := tripIf_time
    rw [State.relayApplied_pass, heq, afterCandidate_pass]
    show (if _ then tested' else _).pass p = _
    rw [reportIf_pass]
    show (if rushed then tested.tripCause p .mudRush (carriedReport t) else tested).pass p = _
    rw [tripIf_record, htested, htime]
  refine ⟨_, hexec, ((gatePositionReport_within h t).append (relayApplied_within h t)).reportFrame, ?_, hpass, ?_⟩
  · rw [heq]
  · rw [hpass, withTripIf_mode]
    show (if moved then noted.withTrip _ _ _ else noted).mode.afterTrip rushed = _
    rw [withTripIf_mode]
    exact afterTrip_afterTrip

/-! ### Signals (R80, R82, R84, R89) -/

section signals

variable {s : State} {p : PassId} {t : Telegram} {a : Actuator} {c : Cause} {tel : Option Interrupted} {n : TipId} {h : Hit}
variable {x : Pass} {now : Word} {v : View} {tr : Traffic} {e : ActionEntry} {b : Prop} [Decidable b] {sig : SignalState}

theorem withTripIf_tips : (if b then x.withTrip c now tel else x).tips = x.tips := by
  split
  · rw [(Pass.withTrip_shape c now tel x).1]
  · rfl

/-- R84, R89: what a signal's report does before it reaches the Action Queue. -/
def signalChecked (p : PassId) (n : TipId) (sig : SignalState) (t : Telegram) (s : State) : State :=
  let noted := s.setTip p n { (s.pass p).tips.get n with signal := sig }
  if sig = .isOn ∧ ((s.pass p).tips.get n).breaker = .working then noted.tripCause p .breakerUnderPermit (carriedReport t) else noted

def signalForced (p : PassId) (n : TipId) (sig : SignalState) (t : Telegram) (s : State) : State :=
  if sig = .isOn ∧ ((s.pass p).tips.get n).standing = .full then (signalChecked p n sig t s).force (.signal p n) .grizzly
  else signalChecked p n sig t s

def signalChanged (p : PassId) (n : TipId) (sig : SignalState) (t : Telegram) (s : State) : State :=
  if sig = ((s.pass p).tips.get n).signal then signalForced p n sig t s else (signalForced p n sig t s).reportChange p

theorem signalStateReport_eq (hv : reportSignal t = some sig) :
    signalStateReport h t s = afterCandidate (.signal h.pass h.object) (signalChanged h.pass h.object sig t s) := by
  unfold signalStateReport
  rw [hv]
  rfl

theorem signalStateReport_ignored (h0 : t.value ≠ 0) (h1 : t.value ≠ 1) : signalStateReport h t s = s := by
  have hnone : reportSignal t = none := (if_neg h1).trans (if_neg h0)
  unfold signalStateReport
  rw [hnone]

theorem reportSignal_some (hv : t.value = 0 ∨ t.value = 1) :
    reportSignal t = some (if t.value = 1 then .isOn else .isOff) := by
  unfold reportSignal
  split
  · rfl
  · rw [if_pos (hv.resolve_right ‹_›)]

theorem signalChecked_pass : (signalChecked p n sig t s).pass p =
    if sig = .isOn ∧ ((s.pass p).tips.get n).breaker = .working then
      Pass.withTrip .breakerUnderPermit s.time (carriedReport t)
        { s.pass p with tips := (s.pass p).tips.set n { (s.pass p).tips.get n with signal := sig } }
    else { s.pass p with tips := (s.pass p).tips.set n { (s.pass p).tips.get n with signal := sig } } := by
  unfold signalChecked
  simp only [tripIf_record]
  have hset : (s.setTip p n { (s.pass p).tips.get n with signal := sig }).pass p =
      { s.pass p with tips := (s.pass p).tips.set n { (s.pass p).tips.get n with signal := sig } } := Quad.get_set_self _ _ _
  rw [hset]
  rfl

theorem signalForced_pass : (signalForced p n sig t s).pass p = (signalChecked p n sig t s).pass p := by
  unfold signalForced
  split
  · exact State.force_pass _ _ _
  · rfl

theorem signalChanged_pass : (signalChanged p n sig t s).pass p = (signalChecked p n sig t s).pass p := by
  unfold signalChanged
  rw [reportIf_pass, signalForced_pass]

theorem signalChecked_tip : ((signalChecked p n sig t s).pass p).tips.get n = { (s.pass p).tips.get n with signal := sig } := by
  rw [signalChecked_pass, withTripIf_tips]
  exact Trio.get_set_self _ _ _

theorem signalChecked_tables : (signalChecked p n sig t s).tables = s.tables := tripIf_tables

theorem signalChecked_sound (hs : CommandsSound s) : CommandsSound (signalChecked p n sig t s) := by
  have hmoves : Moves s (signalChecked p n sig t s) :=
    Moves.append (setTip_moves _ _) (.iteThen .refl fun _ => tripCause_moves _ _ rfl)
  exact hmoves.keeps (fun _ _ => Move.commandsSound) hs

/-- R155: what a trip announces. -/
theorem tripCause_told {ok : NoticeSource → NoticeClass → Nat → Prop} (hok : ok (.pass p) .trip c.code) :
    Told s.tables ok s.traffic (s.tripCause p c tel).traffic := by
  by_cases hl : (s.pass p).mode.isLive = true
  · rw [tripCause_live (mode_live_iff.mp hl), enterTripped_traffic]
    have hpurged : Told s.tables ok s.traffic (s.tripped p c tel).traffic :=
      (Told.foldl (tb := s.tables) _ (fun _ t => originate_told (v := trippedView s p c tel) t) _).trans (purge_told _)
    exact hpurged.trans (raiseMany_told Nat.one_pos hok _)
  · rw [tripCause_traffic_of_rest (by simpa using hl)]
    exact .refl'

theorem signalChecked_told : Told s.tables (fun _ _ _ => True) s.traffic (signalChecked p n sig t s).traffic := by
  unfold signalChecked
  simp only
  split
  · exact tripCause_told (s := s.setTip p n { (s.pass p).tips.get n with signal := sig }) trivial
  · exact .refl'

/-- R139: a signal confirmed ON confirms no safe command. -/
theorem confirm_signal_on (hsafe : orderedSafe tr (.signal p n)) (hon : ((v.passes.get p).tips.get n).signal = .isOn) :
    tr.confirm v (.signal p n) = tr := by
  obtain ⟨e, hl, hi, hd⟩ := hsafe
  have hmem : e ∈ lineOf tr (.signal p n) := by rw [hl]; exact List.mem_singleton.mpr rfl
  have ha : e.actuator = .signal p n := (mem_lineOf.mp hmem).2
  have hissued : issuedEntry tr (.signal p n) = some e := by
    rw [issuedEntry_eq_find?, hl]
    simp [hi]
  refine confirm_of_not hissued ?_
  unfold confirms
  rw [ha, hd]
  simp [hon]

/-- R89: ON over a FULL grizzly leaves the signal ordered safe. -/
theorem signalChanged_orderedSafe (hs : CommandsSound s) (hcp : hasCommandPoint s.tables (.signal p n) = true)
    (hfull : ((s.pass p).tips.get n).standing = .full) : orderedSafe (signalChanged p n .isOn t s).traffic (.signal p n) := by
  have hforced : orderedSafe (signalForced p n .isOn t s).traffic (.signal p n) := by
    unfold signalForced
    rw [if_pos ⟨rfl, hfull⟩]
    exact force_orderedSafe (signalChecked_sound hs).2.2.2 (by rw [signalChecked_tables]; exact hcp)
  unfold signalChanged
  split
  · exact hforced
  · refine (reportChange_keeps_orderedSafe (judge_full ?_)).mpr hforced
    show (((signalForced p n .isOn t s).pass p).tips.get n).standing = .full
    rw [signalForced_pass, signalChecked_tip]
    exact hfull

theorem signalChanged_heard (hcp : hasCommandPoint s.tables (.signal p n) = true)
    (hfull : ((s.pass p).tips.get n).standing = .full) (hen : (s.tables.notices.get .forced).enabled = true) :
    Heard s.tables p .forced (· = 6) s.traffic.ctl (signalChanged p n .isOn t s).traffic.ctl := by
  have hforced : Heard s.tables p .forced (· = 6) s.traffic.ctl (signalForced p n .isOn t s).traffic.ctl := by
    unfold signalForced
    rw [if_pos ⟨rfl, hfull⟩, ← signalChecked_tables (p := p) (n := n) (sig := .isOn) (t := t)]
    exact force_heard rfl (by rw [signalChecked_tables]; exact hcp) (by rw [signalChecked_tables]; exact hen)
      (Onward.refl'.told signalChecked_told) rfl
  have htables : (signalForced p n .isOn t s).tables = s.tables := by
    unfold signalForced
    rw [if_pos ⟨rfl, hfull⟩, force_tables, signalChecked_tables]
  have htold := reportChange_told (s := signalForced p n .isOn t s) (p := p) (ok := fun _ _ _ => False)
  rw [htables] at htold
  unfold signalChanged
  split
  · exact hforced
  · exact hforced.told htold fun _ h => h.elim

/-- R89: the forced safe command stands, and is announced, once the report has been handed on and relayed. -/
theorem signalReported_safe (hs : CommandsSound s) (hcp : hasCommandPoint s.tables (.signal p n) = true)
    (hfull : ((s.pass p).tips.get n).standing = .full) :
    orderedSafe ((afterCandidate (.signal p n) (signalChanged p n .isOn t s)).relayApplied h t).traffic (.signal p n)
      ∧ announced s.tables (.pass p) .forced 6 s.traffic.ctl
          ((afterCandidate (.signal p n) (signalChanged p n .isOn t s)).relayApplied h t).traffic.ctl := by
  have hsafe := signalChanged_orderedSafe (t := t) hs hcp hfull
  have hkept : afterCandidate (.signal p n) (signalChanged p n .isOn t s) = signalChanged p n .isOn t s := by
    have hon : (((signalChanged p n .isOn t s).pass p).tips.get n).signal = .isOn := by
      rw [signalChanged_pass, signalChecked_tip]
    exact congrArg (fun tr => { signalChanged p n .isOn t s with traffic := tr }) (confirm_signal_on (v := (signalChanged p n .isOn t s).view) hsafe hon)
  rw [hkept]
  refine ⟨(orderedSafe_of_actions relayApplied_actions).mpr hsafe, Heard.announced fun hen => ?_⟩
  have htables : (signalChanged p n .isOn t s).tables = s.tables := by
    have hforced : (signalForced p n .isOn t s).tables = s.tables := by
      unfold signalForced
      rw [if_pos ⟨rfl, hfull⟩, force_tables, signalChecked_tables]
    unfold signalChanged
    split <;> exact hforced
  have htold := relayApplied_told (s := signalChanged p n .isOn t s) (h := h) (t := t) (ok := fun _ _ _ => False)
  rw [htables] at htold
  exact (signalChanged_heard hcp hfull hen).told htold fun _ h => h.elim

end signals

/-! ### Breakers (R81 to R83, R142) -/

section breakers

variable {s : State} {p : PassId} {t : Telegram} {n : TipId} {h : Hit} {v : View} {tr : Traffic} {e : ActionEntry}
variable {a : Actuator} {brk : BreakerState}

/-- R83: what a breaker's report does before it reaches the Action Queue. -/
def breakerChecked (p : PassId) (n : TipId) (brk : BreakerState) (t : Telegram) (s : State) : State :=
  let noted := s.setTip p n { (s.pass p).tips.get n with breaker := brk }
  if brk = .working ∧ (((s.pass p).tips.get n).signal = .isOn ∨ hasIssued s.traffic (.signal p n) .nonSafe = true) then
    noted.tripCause p .breakerUnderPermit (carriedReport t)
  else noted

def breakerChanged (p : PassId) (n : TipId) (brk : BreakerState) (t : Telegram) (s : State) : State :=
  if brk = ((s.pass p).tips.get n).breaker then breakerChecked p n brk t s else (breakerChecked p n brk t s).reportChange p

theorem breakerStateReport_eq (hv : reportBreaker t = some brk) : breakerStateReport h t s =
    (breakerChanged h.pass h.object brk t s).candidate (.breaker h.pass h.object) t := by
  unfold breakerStateReport
  rw [hv]
  rfl

theorem breakerStateReport_ignored (h0 : t.value ≠ 0) (h1 : t.value ≠ 1) (h2 : t.value ≠ 2) : breakerStateReport h t s = s := by
  have hnone : reportBreaker t = none := (if_neg h0).trans ((if_neg h1).trans (if_neg h2))
  unfold breakerStateReport
  rw [hnone]

theorem reportBreaker_some (hv : t.value = 0 ∨ t.value = 1) :
    reportBreaker t = some (if t.value = 1 then .working else .parked) := by
  unfold reportBreaker
  obtain h0 | h1 := hv
  · rw [if_pos h0, if_neg (by rw [h0]; decide)]
  · rw [if_neg (by rw [h1]; decide), if_pos h1, if_pos h1]

theorem breakerChecked_pass : (breakerChecked p n brk t s).pass p =
    if brk = .working ∧ (((s.pass p).tips.get n).signal = .isOn ∨ hasIssued s.traffic (.signal p n) .nonSafe = true) then
      Pass.withTrip .breakerUnderPermit s.time (carriedReport t)
        { s.pass p with tips := (s.pass p).tips.set n { (s.pass p).tips.get n with breaker := brk } }
    else { s.pass p with tips := (s.pass p).tips.set n { (s.pass p).tips.get n with breaker := brk } } := by
  unfold breakerChecked
  simp only [tripIf_record]
  have hset : (s.setTip p n { (s.pass p).tips.get n with breaker := brk }).pass p =
      { s.pass p with tips := (s.pass p).tips.set n { (s.pass p).tips.get n with breaker := brk } } := Quad.get_set_self _ _ _
  rw [hset]
  rfl

theorem breakerChanged_pass : (breakerChanged p n brk t s).pass p = (breakerChecked p n brk t s).pass p := by
  unfold breakerChanged
  rw [reportIf_pass]

theorem breakerChanged_breaker : (((breakerChanged p n brk t s).pass p).tips.get n).breaker = brk := by
  rw [breakerChanged_pass, breakerChecked_pass, withTripIf_tips]
  exact congrArg TipRecord.breaker (Trio.get_set_self _ _ _)

/-- R139: a breaker in FAULT confirms nothing. -/
theorem confirm_breaker_fault (hf : ((v.passes.get p).tips.get n).breaker = .fault) :
    tr.confirm v (.breaker p n) = tr := by
  cases he : issuedEntry tr (.breaker p n) with
  | none => exact confirm_of_none he
  | some e =>
    refine confirm_of_not he ?_
    have ha := issuedEntry_actuator he
    unfold confirms
    rw [ha]
    cases e.direction <;> simp [hf]

/-- R137: a re-judgement puts what it admits behind the entries of a line. -/
theorem rejudge_appends {y : HeldEntry} (h : lineOf tr a ≠ []) : ∃ more, restLine (tr.rejudge v y) a = restLine tr a ++ more := by
  have hsame : ∀ {u : Traffic}, restLine u a = restLine tr a → ∃ more, restLine u a = restLine tr a ++ more :=
    fun hu => ⟨[], by rw [hu, List.append_nil]⟩
  obtain ⟨u, reason, ans, n, he, hu | ⟨hu, -⟩⟩ | ⟨reason, he⟩ := rejudge_cases v tr y <;> rw [he]
  · exact hsame (by rw [hu]; rfl)
  · have hline : ∃ more, restLine u a = restLine tr a ++ more := by
      rw [hu]
      by_cases ha : a = y.actuator
      · subst ha
        exact enlist_behind (tr := tr.unpark y.actuator) h
      · exact hsame (enlist_line_of_ne _ _ _ ha)
    exact hline
  · exact hsame rfl

theorem round_appends (h : lineOf tr a ≠ []) : ∃ more, restLine (tr.round v p) a = restLine tr a ++ more := by
  unfold Traffic.round
  generalize tr.pool.filter (HeldEntry.isOf p) = l
  induction l generalizing tr with
  | nil => exact ⟨[], (List.append_nil _).symm⟩
  | cons y ys ih =>
    obtain ⟨more, hmore⟩ := rejudge_appends (v := v) (y := y) h
    have hne : lineOf (tr.rejudge v y) a ≠ [] := fun hnil => by
      rw [lineOf_eq_nil_iff.mp hnil] at hmore
      exact h (lineOf_eq_nil_iff.mpr (List.append_eq_nil_iff.mp hmore.symm).1)
    obtain ⟨more', hmore'⟩ := ih hne
    exact ⟨more ++ more', by rw [List.foldl_cons, hmore', hmore, List.append_assoc]⟩

theorem restLine_issued : (restLine tr a).find? (ActionEntry.isIssuedFor a) = (issuedEntry tr a).map (ActionEntry.withStanding true) := by
  rw [issuedEntry_eq_find?, restLine, List.find?_map]
  congr 2
  funext e
  simp

/-- R129: a round leaves the ISSUED entry of an actuator, but for its telegram's standing. -/
theorem round_issued (h : issuedEntry tr a = some e) :
    ∃ e', issuedEntry (tr.round v p) a = some e' ∧ e'.direction = e.direction := by
  have hne : lineOf tr a ≠ [] := fun hnil => by
    rw [issuedEntry_eq_find?, hnil] at h
    cases h
  obtain ⟨more, hmore⟩ := round_appends (v := v) (p := p) hne
  have hfind := restLine_issued (tr := tr.round v p) (a := a)
  rw [hmore, List.find?_append, restLine_issued, h] at hfind
  obtain ⟨e', he', hstand⟩ := Option.map_eq_some_iff.mp hfind.symm
  exact ⟨e', he', by simpa using congrArg ActionEntry.direction hstand⟩

/-- R142: a FAULT with nothing but safe actions in hand fails and confirms nothing. -/
theorem candidate_fault_safe (hf : ((s.pass p).tips.get n).breaker = .fault)
    (hsafe : ∀ e, issuedEntry s.traffic (.breaker p n) = some e → e.direction = .safe) :
    s.candidate (.breaker p n) t = s := by
  have hafter : afterCandidate (.breaker p n) s = s :=
    congrArg (fun tr => { s with traffic := tr }) (confirm_breaker_fault (v := s.view) hf)
  cases he : issuedEntry s.traffic (.breaker p n) with
  | none => rw [candidate_breaker_none he, hafter]
  | some e => rw [candidate_breaker_some he, if_neg (fun h => by rw [hsafe e he] at h; cases h.2), hafter]

/-- R142: a FAULT against an ISSUED start fails it. -/
theorem candidate_fault_start (hf : ((s.pass p).tips.get n).breaker = .fault)
    (he : issuedEntry s.traffic (.breaker p n) = some e) (hd : e.direction = .nonSafe) :
    s.candidate (.breaker p n) t = s.failAction e (carriedReport t) := by
  rw [candidate_breaker_some he, if_pos ⟨hf, hd⟩]

theorem failAction_start_record (he : issuedEntry s.traffic (.breaker p n) = some e) (hd : e.direction = .nonSafe)
    {tel : Option Interrupted} : (s.failAction e tel).pass p = (s.pass p).withAlert .actionFail s.time tel := by
  have ha : e.actuator = .breaker p n := issuedEntry_actuator he
  have hrec := failAction_record (s := s) (e := e) (tel := tel)
  rwa [ha, if_pos hd] at hrec

theorem withAlert_mode {y : Pass} {c : Cause} {now : Word} {tel : Option Interrupted} :
    (y.withAlert c now tel).mode = if y.mode = .running then .alert else y.mode := by
  unfold Pass.withAlert
  cases hm : y.mode <;> simp [hm]

end breakers

/-- Settles O32. -/
theorem tipPointReports : Obligations.TipPointReports := by
  intro t s h hf p x n under recordUnder
  refine ⟨fun hr => ?_, fun hr => ?_⟩
  · have hexec : exec (.signalState t) s = .next ((signalStateReport h t s).relayApplied h t) := by
      rw [exec_report rfl hf, hr]
      rfl
    refine ⟨fun h0 h1 => by rw [hexec, signalStateReport_ignored h0 h1], fun hv => ?_⟩
    intro now cause noted checked forced changed
    have heq := signalStateReport_eq (s := s) (h := h) (reportSignal_some hv)
    have hon : (now = .isOn) ↔ t.value = 1 := by
      by_cases h1 : t.value = 1
      · exact ⟨fun _ => h1, fun _ => if_pos h1⟩
      · refine ⟨fun hn => ?_, fun h => absurd h h1⟩
        rw [show now = .isOff from if_neg h1] at hn
        cases hn
    have hchecked : signalChecked p n now t s = checked := if_congr (and_congr_left' hon) rfl rfl
    have hforced : signalForced p n now t s = forced := by
      unfold signalForced
      rw [hchecked]
      exact if_congr (and_congr_left' hon) force_eq_afterForcing rfl
    have hchanged : signalChanged p n now t s = changed := by
      unfold signalChanged
      rw [hforced]
    have hpass : (signalChanged p n now t s).pass p = recordUnder cause noted :=
      (signalChanged_pass.trans signalChecked_pass).trans (if_congr (and_congr_left' hon) rfl rfl)
    refine ⟨_, hexec, ((signalStateReport_within h t).append (relayApplied_within h t)).reportFrame, ?_, ?_, ?_, fun h1 hfull hs hcp => ?_⟩
    · rw [heq]
      exact congrArg (fun w => State.relayApplied h t (afterCandidate (.signal p n) w)) hchanged
    · rw [State.relayApplied_pass, heq]
      exact hpass
    · rw [State.relayApplied_pass, heq]
      exact (congrArg Pass.mode hpass).trans withTripIf_mode
    · have hsafe := signalReported_safe (h := h) (t := t) hs hcp hfull
      rw [heq]
      rw [show (if t.value = 1 then SignalState.isOn else .isOff) = .isOn from if_pos h1]
      exact hsafe
  · have hexec : exec (.breakerState t) s = .next ((breakerStateReport h t s).relayApplied h t) := by
      rw [exec_report rfl hf, hr]
      rfl
    have hframe := ((breakerStateReport_within (s := s) h t).append (relayApplied_within h t)).reportFrame
    refine ⟨fun h0 h1 h2 => by rw [hexec, breakerStateReport_ignored h0 h1 h2], fun hv => ?_, fun h2 => ?_⟩
    · intro now cause noted checked changed
      have heq := breakerStateReport_eq (s := s) (h := h) (reportBreaker_some hv)
      have hworking : (now = .working) ↔ t.value = 1 := by
        by_cases h1 : t.value = 1
        · exact ⟨fun _ => h1, fun _ => if_pos h1⟩
        · refine ⟨fun hn => ?_, fun h => absurd h h1⟩
          rw [show now = .parked from if_neg h1] at hn
          cases hn
      have hchecked : breakerChecked p n now t s = checked := if_congr (and_congr_left' hworking) rfl rfl
      have hchanged : breakerChanged p n now t s = changed := by
        unfold breakerChanged
        rw [hchecked]
      have hnofault : (((breakerChanged p n now t s).pass p).tips.get n).breaker ≠ .fault := by
        rw [breakerChanged_breaker]
        by_cases h1 : t.value = 1
        · rw [hworking.mpr h1]
          decide
        · rw [show now = .parked from if_neg h1]
          decide
      have hcandidate : breakerStateReport h t s = afterCandidate (.breaker p n) (breakerChanged p n now t s) :=
        heq.trans (candidate_breaker_sound hnofault)
      have hpass : (breakerChanged p n now t s).pass p = recordUnder cause noted :=
        (breakerChanged_pass.trans breakerChecked_pass).trans (if_congr (and_congr_left' hworking) rfl rfl)
      refine ⟨_, hexec, hframe, ?_, ?_, ?_⟩
      · rw [hcandidate]
        exact congrArg (fun w => State.relayApplied h t (afterCandidate (.breaker p n) w)) hchanged
      · rw [State.relayApplied_pass, hcandidate]
        exact hpass
      · rw [State.relayApplied_pass, hcandidate]
        exact (congrArg Pass.mode hpass).trans withTripIf_mode
    · intro noted kept changed
      have hfault : reportBreaker t = some .fault := by simp [reportBreaker, h2]
      have hchecked : breakerChecked p n .fault t s = kept := by
        unfold breakerChecked
        exact if_neg fun hw => nomatch hw.1
      have hchanged : breakerChanged p n .fault t s = changed := by
        unfold breakerChanged
        rw [hchecked]
        exact if_congr eq_comm rfl rfl
      have heq : breakerStateReport h t s = changed.candidate (.breaker p n) t :=
        (breakerStateReport_eq hfault).trans (congrArg (State.candidate (.breaker p n) t) hchanged)
      have hpass : changed.pass p = noted := reportIf_pass.trans (Quad.get_set_self _ _ _)
      have hbrk : ((changed.pass p).tips.get n).breaker = .fault := by
        rw [hpass]
        exact congrArg TipRecord.breaker (Trio.get_set_self _ _ _)
      have htime : changed.time = s.time := by
        show (if _ then kept else kept.reportChange p).time = _
        split <;> rfl
      have hstart : ∀ e, issuedEntry changed.traffic (.breaker p n) = some e → e.direction = .nonSafe →
          breakerStateReport h t s = changed.failAction e (carriedReport t)
            ∧ (breakerStateReport h t s).pass p = noted.withAlert .actionFail s.time (carriedReport t) := fun e he hd => by
        have hfail := heq.trans (candidate_fault_start hbrk he hd)
        exact ⟨hfail, by rw [hfail, failAction_start_record he hd, hpass, htime]⟩
      have hsafe : (∀ e, issuedEntry changed.traffic (.breaker p n) = some e → e.direction = .safe) →
          breakerStateReport h t s = changed := fun hs => heq.trans (candidate_fault_safe hbrk hs)
      have hmode : ((breakerStateReport h t s).pass p).mode = x.mode
          ∨ (∃ e, issuedEntry changed.traffic (.breaker p n) = some e ∧ e.direction = .nonSafe)
            ∧ ((breakerStateReport h t s).pass p).mode = if x.mode = .running then .alert else x.mode := by
        by_cases hex : ∃ e, issuedEntry changed.traffic (.breaker p n) = some e ∧ e.direction = .nonSafe
        · obtain ⟨e, he, hd⟩ := hex
          exact .inr ⟨⟨e, he, hd⟩, by rw [(hstart e he hd).2]; exact withAlert_mode⟩
        · refine .inl ?_
          have hs : ∀ e, issuedEntry changed.traffic (.breaker p n) = some e → e.direction = .safe := fun e he => by
            cases hd : e.direction with
            | safe => rfl
            | nonSafe => exact absurd ⟨e, he, hd⟩ hex
          rw [hsafe hs, hpass]
      refine ⟨_, hexec, hframe, fun e he hd => ?_, fun hs => ?_, fun hm => ?_, fun hm => ⟨fun e he hd => ?_, ?_⟩⟩
      · obtain ⟨hfail, hrec⟩ := hstart e he hd
        exact ⟨by rw [hfail, failAction_eq_afterFailure], by rw [State.relayApplied_pass, hrec]⟩
      · exact ⟨by rw [hsafe hs], by rw [State.relayApplied_pass, hsafe hs, hpass]⟩
      · rw [State.relayApplied_pass]
        obtain hk | ⟨-, hk⟩ := hmode
        · exact hk
        · rw [hk, if_neg hm]
      · have hissued : ∃ e', issuedEntry changed.traffic (.breaker p n) = some e' ∧ e'.direction = e.direction := by
          by_cases hsame : (x.tips.get n).breaker = .fault
          · rw [show changed = kept from if_pos hsame]
            exact ⟨e, he, rfl⟩
          · rw [show changed = kept.reportChange p from if_neg hsame]
            exact round_issued (v := kept.view) (tr := kept.traffic) he
        obtain ⟨e', he', hd'⟩ := hissued
        rw [State.relayApplied_pass, (hstart e' he' (hd'.trans hd)).2, withAlert_mode, if_pos (show noted.mode = .running from hm)]
      · rw [State.relayApplied_pass]
        obtain hk | ⟨-, hk⟩ := hmode
        · exact .inl (hk.trans hm)
        · exact .inr (hk.trans (if_pos hm))

end Sys2Proof.Machine

/-! Lines and announcements through an evaluation and a column change; the reports that change a column (R36, R39, R40, R44,
R45, R88). -/

namespace Sys2Proof.Machine

section lines

variable {s : State} {p : PassId} {a : Actuator} {c : Cause} {tel : Option Interrupted} {v : View} {tr : Traffic}

/-- R136: a line with entries is led by its ISSUED entry; without non-safe entries it is one ISSUED safe entry. -/
theorem orderedSafe_of_no_nonSafe (hord : LinesOrdered tr) (hne : lineOf tr a ≠ []) (hns : hasNonSafe tr a = false) :
    orderedSafe tr a := by
  have hsafe : ∀ x ∈ lineOf tr a, x.direction = .safe := fun x hx => by
    obtain ⟨hmem, hxa⟩ := mem_lineOf.mp hx
    cases hd : x.direction with
    | safe => rfl
    | nonSafe => rw [hasNonSafe_iff.mpr ⟨x, hmem, hxa, hd⟩] at hns; cases hns
  have hshape := lineShaped_of_ordered hord a
  cases hl : lineOf tr a with
  | nil => exact absurd hl hne
  | cons e rest =>
    rw [hl] at hshape hsafe
    obtain ⟨hi, hrest⟩ := hshape
    have hnil : rest = [] := by
      refine List.eq_nil_iff_forall_not_mem.mpr fun x hx => ?_
      have hx' := hsafe x (List.mem_cons_of_mem _ hx)
      rw [(hrest x hx).2] at hx'
      cases hx'
    exact ⟨e, by rw [hl, hnil], hi, hsafe e List.mem_cons_self⟩

theorem line_of_hasNonSafe (h : hasNonSafe tr a = true) : lineOf tr a ≠ [] := by
  obtain ⟨e, he, ha, -⟩ := hasNonSafe_iff.mp h
  exact List.ne_nil_of_mem (mem_lineOf.mpr ⟨he, ha⟩)

theorem line_of_orderedSafe (h : orderedSafe tr a) : lineOf tr a ≠ [] := by
  obtain ⟨e, he, -⟩ := h
  rw [he]
  exact List.cons_ne_nil _ _

/-- R135: a trimmed line keeps its ISSUED entry. -/
theorem line_of_trimmed {tr' : Traffic} (hord : LinesOrdered tr) (hne : lineOf tr a ≠ []) (ht : LineTrimmed a tr tr') :
    lineOf tr' a ≠ [] := by
  intro hnil
  have hshape := linesOrdered_iff.mp hord a
  cases hl : restLine tr a with
  | nil => exact hne (lineOf_eq_nil_iff.mpr hl)
  | cons e rest =>
    have hissued := ht.2
    rw [hl] at hshape hissued
    rw [lineOf_eq_nil_iff.mp hnil, List.filter_cons, if_pos (ActionEntry.isIssued_of_isIssuedFor hshape.1)] at hissued
    cases hissued

theorem standingCheck_line (hord : LinesOrdered tr) (hne : lineOf tr a ≠ []) : lineOf (tr.standingCheck v p) a ≠ [] := by
  by_cases hl : (v.passes.get p).mode.isLive = true
  · by_cases hf : ∃ f ∈ standingOrders v p tr, f.1 = a
    · obtain ⟨f, hf, rfl⟩ := hf
      exact line_of_orderedSafe (standingCheck_orderedSafe hl hord hf)
    · exact line_of_trimmed hord hne (standingCheck_trims fun f hfm hfa => hf ⟨f, hfm, hfa⟩)
  · rw [standingCheck_of_rest (by simpa using hl)]
    exact hne

theorem round_line_ne (hne : lineOf tr a ≠ []) : lineOf (tr.round v p) a ≠ [] := by
  intro hnil
  obtain ⟨more, hmore⟩ := round_appends (v := v) (p := p) hne
  rw [lineOf_eq_nil_iff.mp hnil] at hmore
  exact hne (lineOf_eq_nil_iff.mpr (List.append_eq_nil_iff.mp hmore.symm).1)

/-- R136: a line with entries keeps some through a change that brings the standing check. -/
theorem reportStandingChange_line (hord : LinesOrdered s.traffic) (hne : lineOf s.traffic a ≠ []) :
    lineOf (s.reportStandingChange p).traffic a ≠ [] :=
  round_line_ne (v := s.view) (standingCheck_line (v := s.view) hord hne)

end lines

/-! ### Properties that an evaluation keeps -/

section evaluations

variable {s : State} {p : PassId} {o u : Bool} {tel : Option Interrupted} {I : State → Prop} {before : Band}

/-- What every step of an evaluation of pass `p` keeps: a new record of the pass that is in the same state, or RUNNING turned
ALERT; a BAND or ALERT notice; a change with the standing check. -/
structure EvaluationKeeps (p : PassId) (I : State → Prop) : Prop where
  record : ∀ s x, I s → x.column = (s.pass p).column → x.tips = (s.pass p).tips → x.chutes = (s.pass p).chutes →
    (x.mode = (s.pass p).mode ∨ (s.pass p).mode = .running ∧ x.mode = .alert) → I (s.setPass p x)
  notice : ∀ s cls n, I s → cls = .band ∨ cls = .alert → I (s.raise (.pass p) cls n)
  change : ∀ s, I s → I (s.reportStandingChange p)

theorem EvaluationKeeps.alertCause (hI : EvaluationKeeps p I) (c : Cause) (h : I s) : I (s.alertCause p c tel) := by
  cases hm : (s.pass p).mode with
  | running =>
    rw [alertCause_running hm]
    exact hI.change _ (hI.notice _ _ _ (hI.record _ _ h rfl rfl rfl (.inr ⟨hm, rfl⟩)) (.inr rfl))
  | alert =>
    rw [alertCause_join (.inl hm)]
    exact hI.record _ _ h rfl rfl rfl (.inl rfl)
  | tripped =>
    rw [alertCause_join (.inr hm)]
    exact hI.record _ _ h rfl rfl rfl (.inl rfl)
  | isolated => rw [alertCause_rest (.inl hm)]; exact h
  | unconfigured => rw [alertCause_rest (.inr hm)]; exact h

theorem EvaluationKeeps.handBand (hI : EvaluationKeeps p I) (h : I s) : I (s.handBand p before) := by
  rw [handBand_eq]
  split
  · exact h
  · exact hI.change _ (hI.notice _ _ _ h (.inl rfl))

theorem EvaluationKeeps.evaluate (hI : EvaluationKeeps p I) (h : I s) : I (s.evaluate p o u tel) := by
  unfold State.evaluate
  simp only
  split
  · exact h
  · split
    · exact hI.handBand (hI.record _ _ h rfl rfl rfl (.inl rfl))
    · rename_i c cs _
      have hfold : ∀ (l : List Cause) (v : State), I v → I (l.foldl (fun st cause => st.alertCause p cause tel) v) := by
        intro l
        induction l with
        | nil => exact fun _ hv => hv
        | cons d ds ih => exact fun v hv => ih _ (hI.alertCause d hv)
      exact hfold (c :: cs) _ (hI.record _ _ h rfl rfl rfl (.inl rfl))

theorem CommandsSound.setPass {x : Pass} (h : CommandsSound s) (hl : x.mode.isLive = (s.pass p).mode.isLive) :
    CommandsSound (s.setPass p x) := by
  obtain ⟨hp, hs⟩ := (commandsSound_iff s).mp h
  refine (commandsSound_iff _).mpr ⟨hp, ?_⟩
  have hlive : (fun q => ((s.setPass p x).pass q).mode.isLive) = fun q => (s.pass q).mode.isLive := by
    funext q
    rw [State.setPass_pass]
    split
    · rename_i hq
      rw [hq, hl]
    · rfl
  rw [hlive]
  exact hs

theorem live_of_kept {m m' : PassState} (h : m' = m ∨ m = .running ∧ m' = .alert) : m'.isLive = m.isLive := by
  obtain rfl | ⟨rfl, rfl⟩ := h <;> rfl

/-- R136: an evaluation keeps what stands behind the queues, and a line with entries. -/
theorem line_kept {a : Actuator} : EvaluationKeeps p fun v => CommandsSound v ∧ lineOf v.traffic a ≠ [] where
  record _ _ h _ _ _ hm := ⟨h.1.setPass (live_of_kept hm), h.2⟩
  notice _ cls n h hc := ⟨(raise_moves _ cls n (sourceFits_pass (by obtain rfl | rfl := hc <;> rfl))).keeps
    (fun _ _ => Move.commandsSound) h.1, h.2⟩
  change _ h := ⟨reportStandingChange_moves.keeps (fun _ _ => Move.commandsSound) h.1, reportStandingChange_line h.1.2.2.2 h.2⟩

theorem sound_kept : EvaluationKeeps p CommandsSound where
  record _ _ h _ _ _ hm := h.setPass (live_of_kept hm)
  notice _ cls n h hc := (raise_moves _ cls n (sourceFits_pass (by obtain rfl | rfl := hc <;> rfl))).keeps
    (fun _ _ => Move.commandsSound) h
  change _ h := reportStandingChange_moves.keeps (fun _ _ => Move.commandsSound) h

/-- An evaluation goes on from what a notice entry was. -/
theorem onward_kept {tb : Tables} {cls : NoticeClass} {c : ControlSide} :
    EvaluationKeeps p fun v => v.tables = tb ∧ Onward p cls c v.traffic.ctl where
  record _ _ h _ _ _ _ := h
  notice v _ _ h _ := ⟨h.1, h.2.told (raiseMany_told (tb := v.tables) (ok := fun _ _ _ => True) Nat.one_pos trivial v.traffic)⟩
  change v h := ⟨h.1, (h.2.told (standingCheck_told (v := v.view) (p := p) (ok := fun _ _ _ => True) fun _ _ => trivial)).told
    (round_told (v := v.view) (ok := fun _ _ _ => True) _)⟩

/-- R44, R45: a column change up to the grizzlies: the record, one evaluation, the head wetness change. -/
def State.columnTold (p : PassId) (col : Column) (o u : Bool) (tel : Option Interrupted) (s : State) : State :=
  let evaluated := (s.setPass p { s.pass p with column := col }).evaluate p o u tel
  if headWetness col = headWetness (s.pass p).column then evaluated else evaluated.reportStandingChange p

theorem EvaluationKeeps.columnTold (hI : EvaluationKeeps p I) {col : Column}
    (h : I (s.setPass p { s.pass p with column := col })) : I (s.columnTold p col o u tel) := by
  unfold State.columnTold
  simp only
  split
  · exact hI.evaluate h
  · exact hI.change _ (hI.evaluate h)

theorem changeColumn_eq_columnTold {col : Column} : s.changeColumn p col o u tel =
    allTips.foldl (State.handAccumulator p (s.pass p).column) (s.columnTold p col o u tel) := by
  unfold State.changeColumn State.completeColumn State.columnTold
  simp only [State.setPass_pass_self]

theorem columnTold_within {col : Column} : Within p s (s.columnTold p col o u tel) := by
  unfold State.columnTold
  simp only
  split
  · exact (setPass_within _).append (evaluate_within _ _ _)
  · exact ((setPass_within _).append (evaluate_within _ _ _)).append reportStandingChange_within

theorem columnTold_pass {col : Column} (hm : (s.pass p).mode ≠ .unconfigured) : (s.columnTold p col o u tel).pass p =
    { s.pass p with
      column := col
      est := Pass.evaluated (s.params p) o u { s.pass p with column := col }
      mode := Pass.stateEvaluated (s.params p) o u { s.pass p with column := col }
      alarm := (Pass.afterEvaluation (s.params p) o u s.time tel { s.pass p with column := col }).alarm } := by
  have hev := evaluate_setPass_whole (s := s) (p := p) (o := o) (u := u) (tel := tel)
    (x := { s.pass p with column := col }) hm
  unfold State.columnTold
  simp only
  split
  · exact hev
  · rw [State.reportStandingChange_pass]
    exact hev

end evaluations

/-! ### Grizzlies after a column change (R45, R87, R88) -/

section grizzlies

variable {s : State} {p : PassId} {n : TipId} {o u : Bool} {tel : Option Interrupted} {before : Column} {c : ControlSide}

theorem handAccumulator_same {q : TipId}
    (h : ((s.pass p).column.accums.get q).tonnage = (before.accums.get q).tonnage) : State.handAccumulator p before s q = s := if_pos h

theorem handAccumulator_column {q : TipId} : ((State.handAccumulator p before s q).pass p).column = (s.pass p).column := by
  rw [handAccumulator_pass]

/-- Only the accumulator that changed hands anything on. -/
theorem foldl_handAccumulator (h : ∀ q, q ≠ n → ((s.pass p).column.accums.get q).tonnage = (before.accums.get q).tonnage) :
    allTips.foldl (State.handAccumulator p before) s = State.handAccumulator p before s n := by
  have hfirst : ∀ q, q ≠ n → State.handAccumulator p before s q = s := fun q hq => handAccumulator_same (h q hq)
  have hlast : ∀ q, q ≠ n → State.handAccumulator p before (State.handAccumulator p before s n) q =
      State.handAccumulator p before s n := fun q hq => handAccumulator_same (by rw [handAccumulator_column]; exact h q hq)
  show State.handAccumulator p before (State.handAccumulator p before (State.handAccumulator p before s 0) 1) 2 = _
  match n with
  | 0 => rw [hlast 1 (by decide), hlast 2 (by decide)]
  | 1 => rw [hfirst 0 (by decide), hlast 2 (by decide)]
  | 2 => rw [hfirst 0 (by decide), hfirst 1 (by decide)]

theorem foldl_handAccumulator_same (h : ∀ q, ((s.pass p).column.accums.get q).tonnage = (before.accums.get q).tonnage) :
    allTips.foldl (State.handAccumulator p before) s = s := by
  rw [foldl_handAccumulator (n := 0) fun q _ => h q, handAccumulator_same (h 0)]

/-- R88: a crossing to FULL, the signal confirmed ON or with entries in its line, leaves the signal ordered safe. -/
theorem crossGrizzly_safe (hord : LinesOrdered s.traffic) (hcp : hasCommandPoint s.tables (.signal p n) = true)
    (hline : ((s.pass p).tips.get n).signal = .isOn ∨ lineOf s.traffic (.signal p n) ≠ []) :
    orderedSafe (s.crossGrizzly p n .full).traffic (.signal p n) := by
  by_cases hpermit : ((s.pass p).tips.get n).signal = .isOn ∨ hasNonSafe s.traffic (.signal p n) = true
  · exact crossGrizzly_orderedSafe hord hcp hpermit
  · obtain ⟨hoff, hns⟩ := not_or.mp hpermit
    have hsafe := orderedSafe_of_no_nonSafe hord (hline.resolve_left hoff) (by simpa using hns)
    have hcross : s.crossGrizzly p n .full =
        State.reportChange p { s with passes := s.passes.set p ((s.pass p).withGrizzly n .full) } :=
      congrArg (State.reportChange p) (if_neg fun h => hpermit h.2)
    rw [hcross]
    refine (reportChange_keeps_orderedSafe (judge_full ?_)).mpr hsafe
    show (((s.passes.set p _).get p).tips.get n).standing = .full
    rw [Quad.get_set_self]
    exact congrArg TipRecord.standing (Trio.get_set_self _ _ _)

theorem columnTold_kept {col : Column} : (s.columnTold p col o u tel).tables = s.tables
    ∧ (∀ q, ((s.columnTold p col o u tel).pass p).tips.get q = (s.pass p).tips.get q ∨ (s.pass p).mode = .unconfigured) := by
  refine ⟨columnTold_within.tables_eq, fun q => ?_⟩
  by_cases hm : (s.pass p).mode = .unconfigured
  · exact .inr hm
  · exact .inl (by rw [columnTold_pass hm])

/-- R88: a column change that takes one grizzly from BELOW to FULL crosses it after its evaluation. -/
theorem changeColumn_crossed {col : Column} (hm : (s.pass p).mode ≠ .unconfigured)
    (hother : ∀ q, q ≠ n → (col.accums.get q).tonnage = ((s.pass p).column.accums.get q).tonnage)
    (hchanged : (col.accums.get n).tonnage ≠ ((s.pass p).column.accums.get n).tonnage)
    (hbelow : ((s.pass p).tips.get n).standing = .below)
    (hfull : standingOf ((s.tables.grizzly.get p).get n) (col.accums.get n).tonnage = .full) :
    s.changeColumn p col o u tel = (s.columnTold p col o u tel).crossGrizzly p n .full := by
  have hcol : ((s.columnTold p col o u tel).pass p).column = col := by rw [columnTold_pass hm]
  have htips : ((s.columnTold p col o u tel).pass p).tips = (s.pass p).tips := by rw [columnTold_pass hm]
  have htables : (s.columnTold p col o u tel).tables = s.tables := columnTold_within.tables_eq
  rw [changeColumn_eq_columnTold, foldl_handAccumulator (n := n) (by rw [hcol]; exact hother)]
  refine (if_neg (by rw [hcol]; exact hchanged)).trans (setStanding_crossed ?_ ?_)
  · rw [hcol, htables]
    exact hfull
  · rw [htips, hbelow]
    decide

/-- R88: it leaves the signal ordered safe, and where the signal is confirmed ON announces it. -/
theorem changeColumn_forces {col : Column} (hm : (s.pass p).mode ≠ .unconfigured) (hs : CommandsSound s)
    (hcp : hasCommandPoint s.tables (.signal p n) = true)
    (hother : ∀ q, q ≠ n → (col.accums.get q).tonnage = ((s.pass p).column.accums.get q).tonnage)
    (hchanged : (col.accums.get n).tonnage ≠ ((s.pass p).column.accums.get n).tonnage)
    (hbelow : ((s.pass p).tips.get n).standing = .below)
    (hfull : standingOf ((s.tables.grizzly.get p).get n) (col.accums.get n).tonnage = .full)
    (hpermit : ((s.pass p).tips.get n).signal = .isOn ∨ hasNonSafe s.traffic (.signal p n) = true) :
    orderedSafe (s.changeColumn p col o u tel).traffic (.signal p n)
      ∧ (((s.pass p).tips.get n).signal = .isOn → (s.tables.notices.get .forced).enabled = true →
          Heard s.tables p .forced (· = 6) s.traffic.ctl (s.changeColumn p col o u tel).traffic.ctl) := by
  have htips : ((s.columnTold p col o u tel).pass p).tips = (s.pass p).tips := by rw [columnTold_pass hm]
  have htables : (s.columnTold p col o u tel).tables = s.tables := columnTold_within.tables_eq
  have hsound : CommandsSound (s.columnTold p col o u tel) := sound_kept.columnTold (hs.setPass rfl)
  rw [changeColumn_crossed hm hother hchanged hbelow hfull]
  refine ⟨crossGrizzly_safe hsound.2.2.2 (by rw [htables]; exact hcp) ?_, fun hon hen => ?_⟩
  · rw [htips]
    exact hpermit.imp id fun hns =>
      (line_kept.columnTold (s := s) (p := p) (o := o) (u := u) (tel := tel) (col := col)
        ⟨hs.setPass rfl, line_of_hasNonSafe hns⟩).2
  · have honward := (onward_kept (tb := s.tables) (cls := .forced) (c := s.traffic.ctl)).columnTold (s := s) (p := p) (o := o)
      (u := u) (tel := tel) (col := col) ⟨rfl, .refl'⟩
    rw [← htables] at hen hcp ⊢
    exact crossGrizzly_heard hcp (.inl (by rw [htips]; exact hon)) hen honward.2

end grizzlies

/-! ### The reports -/

section columns

variable {s : State} {t : Telegram} {h : Hit} {c : Column} {now : Word} {n q : TipId} {w : Wetness}

theorem place_accums {origin : Origin} {ovs : Bool} {k : Nat} : (c.place now origin w ovs k).1.accums = c.accums := by
  unfold Column.place
  split <;> rfl

theorem accumulate_accums_ne {k : Nat} (hq : q ≠ n) : (c.accumulate n k w).1.accums.get q = c.accums.get q :=
  Trio.get_set_ne hq _ _

/-- R36: a tip changes the accumulator of its own tip point alone. -/
theorem tip_accums_ne {m : Rounding} {k share : Nat} (hq : q ≠ n) : (c.tip m now n k w share).1.accums.get q = c.accums.get q := by
  unfold Column.tip
  simp only
  split <;> split
  · rfl
  · exact congrArg (Trio.get · q) place_accums
  · exact accumulate_accums_ne hq
  · exact (accumulate_accums_ne hq).trans (congrArg (Trio.get · q) place_accums)

/-- R40: a tonnage with the oversize mark merged into a charge. -/
theorem absorb_oversize {top : Charge} {k : Nat} :
    top.absorb now k w true =
      { top with
        remaining := min (top.remaining + k) Config.tonnageCeiling
        placed := min (top.placed + k) Config.tonnageCeiling
        wetness := if top.wetness.code < w.code then w else top.wetness
        oversize := true
        merge := some
          { count := match top.merge with
              | none => 1
              | some r => min (r.count + 1) Config.countCeiling
            latest := now } } := by
  unfold Charge.absorb
  rw [Bool.or_true]
  cases top.merge <;> rfl

theorem clearGrizzly_of_place {d : Column} {e : Bool}
    (h : c.place now (.grizzly n) (c.accums.get n).wetness true (c.accums.get n).tonnage = (d, e)) :
    c.clearGrizzly now n = ({ d with accums := d.accums.set n emptyAccumulator }, e) := by
  simp only [Column.clearGrizzly, h]

theorem reportPayload_none (h : t.value.toInt ≤ 0) : reportPayload t = none := if_pos h

theorem reportPayload_some (h : 0 < t.value.toInt) : reportPayload t = some (min t.value.toInt.toNat 6000) := if_neg (not_le.mpr h)

/-- R44, R45: a column change that a report brought, relayed. -/
theorem columnReported {col : Column} {o u : Bool} (hm : (s.pass h.pass).mode ≠ .unconfigured) :
    let v := (s.changeColumn h.pass col o u (carriedReport t)).relayApplied h t
    let x : Pass := { s.pass h.pass with column := col }
    reportFrame h.pass s v ∧ columnChanged s.tables h.pass (s.pass h.pass).column o u s.time (carriedReport t) x (v.pass h.pass)
      ∧ v = (afterColumnChange h.pass x (s.pass h.pass).column o u (carriedReport t) s).relayApplied h t := by
  intro v x
  refine ⟨((changeColumn_within _ _ _ _).append (relayApplied_within h t)).reportFrame, ?_, ?_⟩
  · rw [State.relayApplied_pass]
    exact changeColumn_pass _ _ _ hm
  · exact congrArg (State.relayApplied h t) (changeColumn_eq hm)

end columns

/-- Settles O29. -/
theorem columnReports : Obligations.ColumnReports := by
  refine ⟨fun t s h hf => ?_, fun c now n => ?_⟩
  · have hm := report_configured hf
    intro col pr changed
    refine ⟨fun hr => ?_, fun hr => ?_, fun hr => ?_⟩
    · have hexec : exec (.tip t) s = .next ((tipReport h t s).relayApplied h t) := by
        rw [exec_report rfl hf, hr]
        rfl
      refine ⟨fun h0 => ?_, fun h0 => ?_⟩
      · rw [hexec, tipReport, reportPayload_none h0]
      · intro r signal record limit tonnage
        have htip : tipReport h t s = s.changeColumn h.pass r.1 r.2 false (carriedReport t) := by
          rw [tipReport, reportPayload_some h0]
          rfl
        rw [htip] at hexec
        refine ⟨⟨_, hexec, columnReported hm⟩, fun hs hcp hbelow hne hl hle hpermit => ⟨_, hexec, ?_⟩⟩
        obtain ⟨hsafe, hheard⟩ := changeColumn_forces (o := r.2) (u := false) (tel := carriedReport t) hm hs hcp
          (fun q hq => congrArg Accumulator.tonnage (tip_accums_ne hq)) hne hbelow (if_pos ⟨hl, hle⟩) hpermit
        refine ⟨(orderedSafe_of_actions relayApplied_actions).mpr hsafe, fun hon => Heard.announced fun hen => ?_⟩
        have htold := relayApplied_told (s := s.changeColumn h.pass r.1 r.2 false (carriedReport t)) (h := h) (t := t)
          (ok := fun _ _ _ => False)
        rw [(changeColumn_within _ _ _ _).tables_eq] at htold
        exact (hheard hon hen).told htold fun _ h => h.elim
    · have hexec : exec (.draw t) s = .next ((drawReport h t s).relayApplied h t) := by
        rw [exec_report rfl hf, hr]
        rfl
      refine ⟨fun h0 => ?_, fun h0 => ?_⟩
      · rw [hexec, drawReport, reportPayload_none h0]
      · intro r
        have hdraw : drawReport h t s = s.changeColumn h.pass r.1 r.2.1 r.2.2 (carriedReport t) := by
          rw [drawReport, reportPayload_some h0]
          rfl
        rw [hdraw] at hexec
        exact ⟨_, hexec, columnReported hm⟩
    · have hexec : exec (.grizzlyClear t) s = .next ((grizzlyClearReport h t s).relayApplied h t) := by
        rw [exec_report rfl hf, hr]
        rfl
      refine ⟨fun h0 => ?_, fun h0 => ?_⟩
      · rw [hexec, grizzlyClearReport, if_pos h0]
      · intro r
        have hclear : grizzlyClearReport h t s = s.changeColumn h.pass r.1 r.2 false (carriedReport t) :=
          if_neg (Nat.pos_iff_ne_zero.mp h0)
        rw [hclear] at hexec
        exact ⟨_, hexec, columnReported hm⟩
  · refine ⟨fun hroom => ?_, fun pre top hc hfull => ?_⟩
    · exact clearGrizzly_of_place (place_room hroom)
    · rw [clearGrizzly_of_place (place_full hc hfull), absorb_oversize]
      cases top.merge <;> rfl

end Sys2Proof.Machine

/-! Reports of a chute: moisture and wagons, and the gates they force closed (R43, R45, R97, R100, R101, R103, R123, R124). -/

namespace Sys2Proof.Machine

section wet

variable {s : State} {p : PassId} {a : Actuator} {g : ChuteId} {v : View} {tr : Traffic} {tb : Tables} {c d : ControlSide}
variable {f : Actuator × Reason} {cls : NoticeClass} {i j : Nat}

/-- A raise with one of two details is a raise with the first or a raise with the second. -/
theorem announced_either (h : (tb.notices.get cls).enabled = true → Heard tb p cls (fun n => n = i ∨ n = j) c d) :
    announced tb (.pass p) cls i c d ∨ announced tb (.pass p) cls j c d := by
  by_cases hen : (tb.notices.get cls).enabled = true
  · obtain ⟨hbusy, hidle⟩ := h hen
    cases hx : c.port.sending with
    | some x =>
      obtain ⟨-, e, he, hsrc, hcls, hD, hcount⟩ := hbusy x hx
      have heard : ∀ n, e.detail = n → announced tb (.pass p) cls n c d := fun n hn _ =>
        ⟨fun _ _ => ⟨e, he, hsrc, hcls, hn, hcount⟩, fun h0 => by rw [hx] at h0; cases h0⟩
      exact hD.imp (heard _) (heard _)
    | none =>
      have quiet : ∀ n, (c.notices = [] → ∃ e : NoticeEntry, e.source = .pass p ∧ e.cls = cls ∧ e.detail = n
          ∧ (e ∈ d.notices ∨ ∃ x, d.port.sending = some x ∧ x.tel = noticeTelegram tb.device e)) →
          announced tb (.pass p) cls n c d := fun n hn _ =>
        ⟨fun x h0 => (by rw [hx] at h0; cases h0), fun _ h0 => hn h0⟩
      by_cases hn : c.notices = []
      · obtain ⟨-, e, hsrc, hcls, hD, he⟩ := hidle hx hn
        exact hD.imp (fun h => quiet _ fun _ => ⟨e, hsrc, hcls, h, he⟩) (fun h => quiet _ fun _ => ⟨e, hsrc, hcls, h, he⟩)
      · exact .inl (quiet _ fun h => absurd h hn)
  · exact .inl fun h => absurd h hen

theorem openAboveTolerance_setPass {x : Pass} (h : (x.chutes.get g).gate = ((s.pass p).chutes.get g).gate) :
    openAboveTolerance (s.setPass p x).view p g = openAboveTolerance s.view p g := by
  unfold openAboveTolerance
  rw [show (((s.setPass p x).view.passes.get p).chutes.get g).gate = ((s.view.passes.get p).chutes.get g).gate from
    (congrArg (fun y : Pass => (y.chutes.get g).gate) (Quad.get_set_self _ _ _)).trans h]
  rfl

theorem isEngaged_setPass {x : Pass} (h : x.chutes = (s.pass p).chutes) :
    isEngaged (s.setPass p x).view tr (.gate p g) = isEngaged s.view tr (.gate p g) :=
  congrArg (· || hasIssued tr (.gate p g) .nonSafe) (openAboveTolerance_setPass (by rw [h]))

theorem openingLimit_setPass {x : Pass} :
    openingLimit (s.setPass p x).view p = byWetness (s.tables.openings.get p) (headWetness x.column) :=
  congrArg (fun y : Pass => byWetness (s.tables.openings.get p) (headWetness y.column)) (Quad.get_set_self _ _ _)

/-- R116: no open is allowed for a gate with an opening limit of 0. -/
theorem judge_tooWet (h : openingLimit v p = 0) : ∀ tr k, ¬Allowed (judge v tr (.gate p g) k) := fun _ _ hallowed =>
  (judge_allowed_iff.mp hallowed).1 (.inr (.inr ⟨p, g, rfl, h⟩))

/-- R116: nor for a gate without a wagon. -/
theorem judge_wagonless (h : ((v.passes.get p).chutes.get g).wagon ≠ .present) :
    ∀ tr k, ¬Allowed (judge v tr (.gate p g) k) := fun _ _ hallowed =>
  (judge_allowed_iff.mp hallowed).2 (.inr fun hmet => h hmet.1)

/-- R124: the reasons of a standing check are TABLE and WET. -/
theorem standingReason_code {r : Reason} (h : standingReason v a = some r) : r.code = 2 ∨ r.code = 7 := by
  unfold standingReason at h
  split at h
  · obtain rfl := Option.some.inj h
    exact .inl rfl
  · cases a with
    | gate q n =>
      simp only at h
      split at h
      · obtain rfl := Option.some.inj h
        exact .inr rfl
      · cases h
    | signal q n => cases h
    | breaker q n => cases h

theorem standingOrders_code (h : f ∈ standingOrders v p tr) : f.2.code = 2 ∨ f.2.code = 7 := by
  obtain ⟨a, -, hf⟩ := List.mem_filterMap.mp h
  split at hf
  · obtain ⟨r, hr, rfl⟩ := Option.map_eq_some_iff.mp hf
    exact standingReason_code hr
  · cases hf

/-- R124: an engaged gate with an opening limit of 0 is forced. -/
theorem standingOrders_wet (hcp : hasCommandPoint v.tables (.gate p g) = true) (hwet : openingLimit v p = 0)
    (hengaged : isEngaged v tr (.gate p g) = true) : ∃ r, (Actuator.gate p g, r) ∈ standingOrders v p tr := by
  have hreason : ∃ r, standingReason v (.gate p g) = some r := by
    unfold standingReason
    split
    · exact ⟨_, rfl⟩
    · exact ⟨_, if_pos hwet⟩
  obtain ⟨r, hr⟩ := hreason
  refine ⟨r, List.mem_filterMap.mpr ⟨.gate p g, ?_, ?_⟩⟩
  · unfold standingOrder
    fin_cases g <;> simp
  · rw [hcp, hengaged, hr]
    rfl

/-- The gate is ordered safe, and a FORCED notice of a standing check was raised since `c`. -/
def GateForced (tb : Tables) (p : PassId) (g : ChuteId) (c : ControlSide) (tr : Traffic) : Prop :=
  orderedSafe tr (.gate p g)
    ∧ ((tb.notices.get .forced).enabled = true → Heard tb p .forced (fun n => n = 2 ∨ n = 7) c tr.ctl)

/-- A live pass whose opening limit is 0, of which the gate is engaged or was forced since `c`. -/
structure GateWet (tb : Tables) (p : PassId) (g : ChuteId) (c : ControlSide) (s : State) : Prop where
  sound : CommandsSound s
  tables : s.tables = tb
  live : (s.pass p).mode.isLive = true
  wet : openingLimit s.view p = 0
  onward : Onward p .forced c s.traffic.ctl
  settled : isEngaged s.view s.traffic (.gate p g) = true ∨ GateForced tb p g c s.traffic

theorem GateForced.told {ok : NoticeSource → NoticeClass → Nat → Prop} {tr' : Traffic} (h : GateForced tb p g c tr)
    (ht : Told tb ok tr tr') (hok : ∀ n, ok (.pass p) .forced n → n = 2 ∨ n = 7) (hsafe : orderedSafe tr' (.gate p g)) :
    GateForced tb p g c tr' := ⟨hsafe, fun hen => (h.2 hen).told ht hok⟩

/-- R124: the standing check of such a pass forces the gate, if it is not forced. -/
theorem GateWet.check (h : GateWet tb p g c s) (hcp : hasCommandPoint tb (.gate p g) = true) :
    GateForced tb p g c (s.traffic.standingCheck s.view p) := by
  obtain ⟨hsound, rfl, hlive, hwet, honward, hsettled⟩ := h
  by_cases hengaged : isEngaged s.view s.traffic (.gate p g) = true
  · obtain ⟨r, hr⟩ := standingOrders_wet (v := s.view) hcp hwet hengaged
    refine ⟨standingCheck_orderedSafe (v := s.view) hlive hsound.2.2.2 hr, fun hen => ?_⟩
    cases hlast : (standingOrders s.view p s.traffic).getLast? with
    | none =>
      rw [List.getLast?_eq_none_iff.mp hlast] at hr
      cases hr
    | some last =>
      exact standingCheck_heard (v := s.view) hlive hlast (standingOrders_code (List.mem_of_getLast? hlast)) hen honward
  · have hforced := hsettled.resolve_left hengaged
    exact hforced.told (standingCheck_told (v := s.view) (ok := fun _ _ n => n = 2 ∨ n = 7) fun _ => standingOrders_code)
      (fun _ h => h) (standingCheck_keeps_orderedSafe hsound.2.2.2 hforced.1)

theorem GateWet.change (h : GateWet tb p g c s) (hcp : hasCommandPoint tb (.gate p g) = true) :
    GateForced tb p g c (s.reportStandingChange p).traffic := by
  have hcheck := h.check hcp
  have hround : Told tb (fun _ _ _ => False) (s.traffic.standingCheck s.view p) (s.reportStandingChange p).traffic := by
    rw [← h.tables]
    exact round_told (v := s.view) _
  exact hcheck.told hround (fun _ h => h.elim) ((orderedSafe_of_restLine (round_line (v := s.view) (judge_tooWet h.wet))).mpr hcheck.1)

/-- Every step of an evaluation keeps the gate engaged or forced. -/
theorem wet_kept (hcp : hasCommandPoint tb (.gate p g) = true) : EvaluationKeeps p (GateWet tb p g c) where
  record v x h hcol _ hch hm := by
    have hpass : (v.setPass p x).pass p = x := Quad.get_set_self _ _ _
    refine ⟨h.sound.setPass (live_of_kept hm), h.tables, ?_, ?_, h.onward, ?_⟩
    · rw [hpass, live_of_kept hm]
      exact h.live
    · rw [openingLimit_setPass, hcol]
      exact h.wet
    · exact h.settled.imp_left fun hengaged => (isEngaged_setPass hch).trans hengaged
  notice v cls n h hc := by
    have hne : cls ≠ .forced := by obtain rfl | rfl := hc <;> decide
    have htold : Told tb (fun _ k _ => k ≠ .forced) v.traffic (v.raise (.pass p) cls n).traffic := by
      rw [← h.tables]
      exact raiseMany_told (tb := v.tables) Nat.one_pos hne v.traffic
    exact ⟨sound_kept.notice v cls n h.sound hc, h.tables, h.live, h.wet, h.onward.told htold,
      h.settled.imp_right fun hforced => hforced.told htold (fun _ h => absurd rfl h) hforced.1⟩
  change v h := by
    have honward := (onward_kept (tb := tb) (cls := .forced) (c := c)).change v ⟨h.tables, h.onward⟩
    exact ⟨sound_kept.change v h.sound, h.tables, h.live, h.wet, honward.2, .inr (h.change hcp)⟩

end wet

/-! ### Moisture (R43, R103) -/

section moisture

variable {s : State} {p : PassId} {g : ChuteId} {w : Wetness} {o u : Bool} {tel : Option Interrupted} {col : Column} {t : Telegram}

theorem moisten_accums : (col.moisten w).accums = col.accums := by
  unfold Column.moisten
  split <;> rfl

/-- R43: a head wetness that moisture changes is the class reported. -/
theorem headWetness_moisten (h : headWetness (col.moisten w) ≠ headWetness col) : headWetness (col.moisten w) = w := by
  unfold Column.moisten headWetness Wetness.wetter at *
  cases hc : col.charges with
  | nil => simp [hc] at h
  | cons x xs =>
    simp only [hc] at h ⊢
    split at h
    · rw [if_pos ‹_›]
    · exact absurd rfl h

/-- R44, R45: moisture changes no accumulator, so it hands on no crossing. -/
theorem changeColumn_moisten (hm : (s.pass p).mode ≠ .unconfigured) :
    s.changeColumn p ((s.pass p).column.moisten w) o u tel = s.columnTold p ((s.pass p).column.moisten w) o u tel := by
  rw [changeColumn_eq_columnTold]
  refine foldl_handAccumulator_same fun q => ?_
  rw [columnTold_pass hm]
  exact congrArg (fun a : Trio Accumulator => (a.get q).tonnage) moisten_accums

/-- R45, R124: a head wetness raised to a class with opening limit 0 forces each engaged gate of a live pass. -/
theorem columnTold_wet (hs : CommandsSound s) (hlive : (s.pass p).mode.isLive = true)
    (hne : headWetness col ≠ headWetness (s.pass p).column)
    (hwet : byWetness (s.tables.openings.get p) (headWetness col) = 0)
    (hcp : hasCommandPoint s.tables (.gate p g) = true)
    (hengaged : isEngaged s.view s.traffic (.gate p g) = true) :
    let v := s.columnTold p col o u tel
    CommandsSound v ∧ (v.pass p).mode.isLive = true ∧ GateForced s.tables p g s.traffic.ctl v.traffic := by
  intro v
  have hstart : GateWet s.tables p g s.traffic.ctl (s.setPass p { s.pass p with column := col }) := by
    have hpass : (s.setPass p { s.pass p with column := col }).pass p = { s.pass p with column := col } := Quad.get_set_self _ _ _
    refine ⟨hs.setPass rfl, rfl, by rw [hpass]; exact hlive, ?_, .refl', .inl ?_⟩
    · rw [openingLimit_setPass]
      exact hwet
    · exact (isEngaged_setPass (x := { s.pass p with column := col }) rfl).trans hengaged
  have hev := (wet_kept hcp).evaluate (o := o) (u := u) (tel := tel) hstart
  have hv : v = ((s.setPass p { s.pass p with column := col }).evaluate p o u tel).reportStandingChange p := if_neg hne
  rw [hv]
  exact ⟨sound_kept.change _ hev.sound, hev.live, hev.change hcp⟩

/-- R155: a trip keeps the gate forced. -/
theorem tripCause_forced {cause : Cause} {tb : Tables} {c : ControlSide} (hs : CommandsSound s) (htb : s.tables = tb)
    (hlive : (s.pass p).mode.isLive = true) (hcp : hasCommandPoint tb (.gate p g) = true)
    (h : GateForced tb p g c s.traffic) : GateForced tb p g c (s.tripCause p cause tel).traffic := by
  subst htb
  refine h.told (tripCause_told (ok := fun _ k _ => k = .trip) rfl) (fun _ h => nomatch h) ?_
  rw [tripCause_live (mode_live_iff.mp hlive)]
  exact enterTripped_orderedSafe hs rfl hcp

theorem relayApplied_forced {h : Hit} {tb : Tables} {c : ControlSide} (htb : s.tables = tb)
    (hf : GateForced tb p g c s.traffic) : GateForced tb p g c (s.relayApplied h t).traffic := by
  subst htb
  exact hf.told (relayApplied_told (ok := fun _ _ _ => False)) (fun _ h => h.elim)
    ((orderedSafe_of_actions relayApplied_actions).mpr hf.1)

end moisture

/-! ### The two reports -/

section reports

variable {s : State} {p : PassId} {g : ChuteId} {w : Wetness} {tel : Option Interrupted} {t : Telegram} {h : Hit}
variable {wagon : WagonState}

/-- R103: the record of a chute at which moisture was reported. -/
def Pass.withMoisture (x : Pass) (g : ChuteId) (w : Wetness) : Pass :=
  { x with chutes := x.chutes.set g { x.chutes.get g with moisture := some w } }

theorem Pass.withMoisture_gate {x : Pass} : ((x.withMoisture g w).chutes.get g).gate = (x.chutes.get g).gate := by
  unfold Pass.withMoisture
  rw [Duo.get_set_self]

/-- R103: moisture at the chute record. -/
theorem moistureAtChute_eq : moistureAtChute p g w t s =
    if w = .slurry ∧ openAboveTolerance s.view p g = true then
      (s.setPass p ((s.pass p).withMoisture g w)).tripCause p .mudRush (carriedReport t)
    else s.setPass p ((s.pass p).withMoisture g w) := by
  rw [← openAboveTolerance_setPass (x := (s.pass p).withMoisture g w) Pass.withMoisture_gate]
  rfl

/-- R97: the record of a chute at which a wagon was reported. -/
def Pass.withWagon (x : Pass) (g : ChuteId) (wagon : WagonState) : Pass :=
  { x with chutes := x.chutes.set g { x.chutes.get g with wagon := wagon } }

theorem Pass.withWagon_record {x : Pass} : (x.withWagon g wagon).chutes.get g = { x.chutes.get g with wagon := wagon } :=
  Duo.get_set_self _ _ _

theorem Pass.withWagon_gate {x : Pass} : ((x.withWagon g wagon).chutes.get g).gate = (x.chutes.get g).gate := by
  rw [Pass.withWagon_record]

theorem Pass.withWagon_eq_iff {x : Pass} : x.withWagon g wagon = x ↔ wagon = (x.chutes.get g).wagon := by
  refine ⟨fun h => ?_, fun h => ?_⟩
  · have hrecord := Pass.withWagon_record (x := x) (g := g) (wagon := wagon)
    rw [h] at hrecord
    exact (congrArg ChuteRecord.wagon hrecord).symm
  · have hset : x.chutes.set g (x.chutes.get g) = x.chutes := by fin_cases g <;> rfl
    unfold Pass.withWagon
    rw [h, show ({ x.chutes.get g with wagon := (x.chutes.get g).wagon } : ChuteRecord) = x.chutes.get g from rfl, hset]

/-- R101: what a wagon's report forces. -/
def wagonForced (p : PassId) (g : ChuteId) (wagon : WagonState) (s : State) : State :=
  let noted := s.setPass p ((s.pass p).withWagon g wagon)
  if wagon = .absent ∧ (openAboveTolerance s.view p g = true ∨ hasIssued s.traffic (.gate p g) .nonSafe = true) then
    afterForcing (.gate p g) .wagon noted
  else noted

theorem wagonReport_eq (hv : reportWagon t = some wagon) : wagonReport h t s =
    if wagon = ((s.pass h.pass).chutes.get (chuteOf h.object)).wagon then wagonForced h.pass (chuteOf h.object) wagon s
    else (wagonForced h.pass (chuteOf h.object) wagon s).reportChange h.pass := by
  have hlost : wagonLost (s.setPass h.pass ((s.pass h.pass).withWagon (chuteOf h.object) wagon)) h.pass (chuteOf h.object) = true ↔
      openAboveTolerance s.view h.pass (chuteOf h.object) = true
        ∨ hasIssued s.traffic (.gate h.pass (chuteOf h.object)) .nonSafe = true := by
    unfold wagonLost
    rw [openAboveTolerance_setPass Pass.withWagon_gate, Bool.or_eq_true]
    rfl
  have hforced : (if wagon = .absent ∧ wagonLost (s.setPass h.pass ((s.pass h.pass).withWagon (chuteOf h.object) wagon))
        h.pass (chuteOf h.object) = true then
      (s.setPass h.pass ((s.pass h.pass).withWagon (chuteOf h.object) wagon)).force (.gate h.pass (chuteOf h.object)) .wagon
      else s.setPass h.pass ((s.pass h.pass).withWagon (chuteOf h.object) wagon)) =
        wagonForced h.pass (chuteOf h.object) wagon s := by
    rw [force_eq_afterForcing]
    exact if_congr (and_congr_right fun _ => hlost) rfl rfl
  unfold wagonReport
  rw [hv, ← hforced]
  rfl

theorem wagonReport_ignored (h0 : t.value ≠ 0) (h1 : t.value ≠ 1) : wagonReport h t s = s := by
  have hnone : reportWagon t = none := (if_neg h1).trans (if_neg h0)
  unfold wagonReport
  rw [hnone]

theorem reportWagon_some (hv : t.value = 0 ∨ t.value = 1) :
    reportWagon t = some (if t.value = 1 then .present else .absent) := by
  unfold reportWagon
  split
  · rfl
  · rw [if_pos (hv.resolve_right ‹_›)]

theorem wagonForced_pass : (wagonForced p g wagon s).pass p = (s.pass p).withWagon g wagon := by
  have hset : (s.setPass p ((s.pass p).withWagon g wagon)).pass p = (s.pass p).withWagon g wagon := Quad.get_set_self _ _ _
  unfold wagonForced
  simp only
  split
  · rw [← force_eq_afterForcing, State.force_pass, hset]
  · exact hset

/-- R101: ABSENT under an engaged gate leaves it ordered safe, and says so. -/
theorem wagonForced_safe (hs : CommandsSound s) (hcp : hasCommandPoint s.tables (.gate p g) = true)
    (hlost : openAboveTolerance s.view p g = true ∨ hasIssued s.traffic (.gate p g) .nonSafe = true) :
    orderedSafe (wagonForced p g .absent s).traffic (.gate p g)
      ∧ (wagonForced p g .absent s).tables = s.tables
      ∧ ((s.tables.notices.get .forced).enabled = true →
          Heard s.tables p .forced (· = 3) s.traffic.ctl (wagonForced p g .absent s).traffic.ctl) := by
  have heq : wagonForced p g .absent s =
      (s.setPass p ((s.pass p).withWagon g .absent)).force (.gate p g) .wagon := by
    rw [force_eq_afterForcing]
    exact if_pos ⟨rfl, hlost⟩
  rw [heq]
  exact ⟨force_orderedSafe hs.2.2.2 hcp, force_tables, fun hen =>
    force_heard (s := s.setPass p ((s.pass p).withWagon g .absent)) (D := (· = 3)) rfl hcp hen .refl' rfl⟩

theorem wagonReport_safe (hs : CommandsSound s) (hv : reportWagon t = some .absent)
    (hcp : hasCommandPoint s.tables (.gate h.pass (chuteOf h.object)) = true)
    (hlost : openAboveTolerance s.view h.pass (chuteOf h.object) = true
      ∨ hasIssued s.traffic (.gate h.pass (chuteOf h.object)) .nonSafe = true) :
    orderedSafe ((wagonReport h t s).relayApplied h t).traffic (.gate h.pass (chuteOf h.object))
      ∧ announced s.tables (.pass h.pass) .forced 3 s.traffic.ctl ((wagonReport h t s).relayApplied h t).traffic.ctl := by
  obtain ⟨hsafe, htables, hheard⟩ := wagonForced_safe hs hcp hlost
  have hwagonless : ∀ tr k, ¬Allowed (judge (wagonForced h.pass (chuteOf h.object) .absent s).view tr
      (.gate h.pass (chuteOf h.object)) k) := by
    refine judge_wagonless ?_
    rw [show ((wagonForced h.pass (chuteOf h.object) .absent s).view.passes.get h.pass) = _ from wagonForced_pass,
      Pass.withWagon_record]
    exact WagonState.noConfusion
  have hreported : orderedSafe (wagonReport h t s).traffic (.gate h.pass (chuteOf h.object))
      ∧ Told s.tables (fun _ _ _ => False) (wagonForced h.pass (chuteOf h.object) .absent s).traffic (wagonReport h t s).traffic := by
    rw [wagonReport_eq hv, ← htables]
    split
    · exact ⟨hsafe, .refl'⟩
    · exact ⟨(reportChange_keeps_orderedSafe hwagonless).mpr hsafe, reportChange_told⟩
  have hrelayed := relayApplied_told (s := wagonReport h t s) (h := h) (t := t) (ok := fun _ _ _ => False)
  rw [(wagonReport_within h t).tables_eq] at hrelayed
  exact ⟨(orderedSafe_of_actions relayApplied_actions).mpr hreported.1, Heard.announced fun hen =>
    ((hheard hen).told hreported.2 fun _ h => h.elim).told hrelayed fun _ h => h.elim⟩

/-- R2: a code that is none of Dry, Damp and Wet. -/
theorem reportWetness_slurry (h0 : t.qual ≠ 0) (h1 : t.qual ≠ 1) (h2 : t.qual ≠ 2) : reportWetness t = .slurry := by
  unfold reportWetness
  cases hw : Wetness.ofCode t.qual.toNat with
  | none => rfl
  | some w =>
    have hcode := Wetness.ofCode_eq_some_iff.mp hw
    have hne : ∀ b : Byte, t.qual ≠ b → w.code ≠ b.toNat := fun b hb h => hb (BitVec.eq_of_toNat_eq (hcode.trans h))
    cases w with
    | dry => exact absurd rfl (hne 0 h0)
    | damp => exact absurd rfl (hne 1 h1)
    | wet => exact absurd rfl (hne 2 h2)
    | slurry => rfl

end reports

/-- R43, R103: a moisture report, relayed: the state it answers and the record it leaves. -/
theorem moistureReported {s : State} {t : Telegram} {h : Hit} (hm : (s.pass h.pass).mode ≠ .unconfigured) :
    let p := h.pass
    let w := reportWetness t
    let told := moistureAtColumn p w t s
    let muddy := w = .slurry ∧ openAboveTolerance s.view p (chuteOf h.object) = true
    let kept := told.setPass p ((told.pass p).withMoisture (chuteOf h.object) w)
    (told.pass p).chutes = (s.pass p).chutes ∧ told.time = s.time
      ∧ chuteMoistureReport h t s = if muddy then kept.tripCause p .mudRush (carriedReport t) else kept := by
  intro p w told muddy kept
  have hwithin : Within p s told := moistureAtColumn_within w t
  have hchutes : (told.pass p).chutes = (s.pass p).chutes := by
    show (State.pass (if _ then s else _) p).chutes = _
    split
    · rfl
    · rw [changeColumn_moisten hm, columnTold_pass hm]
  have hopen : openAboveTolerance told.view p (chuteOf h.object) = openAboveTolerance s.view p (chuteOf h.object) := by
    unfold openAboveTolerance
    rw [show (told.view.passes.get p).chutes = (s.view.passes.get p).chutes from hchutes,
      show told.view.tables = s.view.tables from hwithin.tables_eq]
  refine ⟨hchutes, hwithin.time_eq, ?_⟩
  unfold chuteMoistureReport
  rw [moistureAtChute_eq, hopen]

/-- Settles O30: each report set at its records, handed on and relayed; the forced gates by what every step keeps. -/
theorem chuteReports : Obligations.ChuteReports := by
  refine ⟨fun t s h hf => ?_, fun t n => ⟨fun h => ?_, fun h => ?_, fun h => ?_, reportWetness_slurry,
    fun w => Wetness.ofCode_eq_some_iff, rfl, rfl⟩, fun c w => ⟨fun hc => ?_, fun head rest hc => ?_⟩⟩
  · have hm := report_configured hf
    intro p x c
    refine ⟨fun hr => ?_, fun hr => ⟨fun h0 h1 => ?_, fun hv => ?_⟩⟩
    · have hexec : exec (.chuteMoisture t) s = .next ((chuteMoistureReport h t s).relayApplied h t) := by
        rw [exec_report rfl hf, hr]
        rfl
      refine ⟨_, hexec, ((chuteMoistureReport_within h t).append (relayApplied_within h t)).reportFrame, ?_⟩
      intro w noted muddy raised rushed told kept
      obtain ⟨hchutes, htime, heq⟩ := moistureReported (s := s) (t := t) hm
      have htold : moistureAtColumn p w t s = told := if_congr .rfl rfl (changeColumn_eq hm)
      rw [show moistureAtColumn h.pass (reportWetness t) t s = told from htold] at hchutes htime heq
      have hkept : told.setPass p ((told.pass p).withMoisture c w) = kept := by
        unfold Pass.withMoisture
        rw [hchutes]
        rfl
      rw [show told.setPass h.pass ((told.pass h.pass).withMoisture (chuteOf h.object) (reportWetness t)) = kept from hkept] at heq
      have hrecord : ((chuteMoistureReport h t s).relayApplied h t).pass p = rushed { told.pass p with chutes := noted } := by
        rw [State.relayApplied_pass, heq, tripIf_record, show kept.time = s.time from htime,
          show kept.pass p = { told.pass p with chutes := noted } from Quad.get_set_self _ _ _]
      have hcolumn (hne : headWetness raised.column ≠ headWetness x.column) :
          told = s.columnTold p raised.column false false (carriedReport t) := by
        rw [← changeColumn_moisten hm, changeColumn_eq hm]
        exact if_neg hne
      refine ⟨by rw [heq], fun hsame => ?_, fun hne => ⟨?_, fun g hs hlive hwet hcp hopen => ?_⟩⟩
      · rw [hrecord, show told = s from if_pos hsame]
      · rw [hrecord, hcolumn hne, columnTold_pass hm]
      · have hhead : headWetness raised.column = w := headWetness_moisten hne
        obtain ⟨hsound, hlive', hforced⟩ := columnTold_wet (o := false) (u := false) (tel := carriedReport t) (g := g)
          hs hlive hne (by rw [hhead]; exact hwet) hcp (by rw [isEngaged, Bool.or_eq_true]; exact hopen)
        rw [← hcolumn hne] at hsound hlive' hforced
        have htables : told.tables = s.tables := by
          rw [← htold]
          exact (moistureAtColumn_within w t).tables_eq
        have hreport : GateForced s.tables p g s.traffic.ctl (chuteMoistureReport h t s).traffic := by
          rw [heq]
          split
          · refine tripCause_forced (s := kept) (hsound.setPass rfl) htables ?_ hcp hforced
            rw [show kept.pass p = { told.pass p with chutes := noted } from Quad.get_set_self _ _ _]
            exact hlive'
          · exact hforced
        have hrelayed := relayApplied_forced (h := h) (t := t) (chuteMoistureReport_within h t).tables_eq hreport
        exact ⟨hrelayed.1, announced_either hrelayed.2⟩
    · rw [exec_report rfl hf, hr, show reportEffect .wagon h t s = s from wagonReport_ignored h0 h1]
    · have hexec : exec (.wagon t) s = .next ((wagonReport h t s).relayApplied h t) := by
        rw [exec_report rfl hf, hr]
        rfl
      have hreport := wagonReport_eq (h := h) (s := s) (reportWagon_some hv)
      have hrecord : ((wagonReport h t s).relayApplied h t).pass p = x.withWagon c (if t.value = 1 then .present else .absent) := by
        rw [State.relayApplied_pass, hreport, reportIf_pass, wagonForced_pass]
      refine ⟨_, hexec, ((wagonReport_within h t).append (relayApplied_within h t)).reportFrame, hrecord,
        fun h0 hs hcp hopen => wagonReport_safe hs ?_ hcp hopen, ?_⟩
      · rw [reportWagon_some hv, if_neg (by rw [h0]; decide)]
      · intro noted lost forced
        have hforced : wagonForced p c (if t.value = 1 then .present else .absent) s = forced := by
          have hnoted : s.setPass p ((s.pass p).withWagon c (if t.value = 1 then .present else .absent)) = noted := by
            rw [← hrecord]
            rfl
          have habsent : (if t.value = 1 then WagonState.present else .absent) = .absent ↔ t.value = 0 := by
            obtain h0 | h1 := hv
            · simp [h0]
            · simp [h1]
          unfold wagonForced
          simp only [hnoted]
          exact if_congr (and_congr_left' habsent) rfl rfl
        rw [hrecord]
        simp only [Pass.withWagon_eq_iff]
        rw [hreport, ← hforced]
        exact apply_ite (State.relayApplied h t) _ _ _
  · unfold reportWetness
    rw [h]
    rfl
  · unfold reportWetness
    rw [h]
    rfl
  · unfold reportWetness
    rw [h]
    rfl
  · unfold Column.moisten
    rw [hc]
  · unfold Column.moisten
    rw [hc]
    rfl

end Sys2Proof.Machine
